-- ==== Sys2Proof/Word.lean ====
section
/-! DEFINITION. The widths the spec fixes (00_scope.md R12, R90): bytes, the two 24-bit word formats, and a
word together with the interface it arrives on (30_encoding.md R90, R107). -/

namespace Sys2Proof

/-- An 8-bit unsigned value: a byte on the bus, an element of RAW or STR (R12). -/
abbrev Byte := BitVec 8

/-- A 24-bit word: format H24 or U24 (R90). -/
abbrev Word24 := BitVec 24

/-- A frame of one of the four wire encodings (R90, R102 to R105), with its bits as the opcode table numbers them. -/
inductive WireFrame where
  | a7 (w : BitVec 7)
  | w3 (w : BitVec 24)
  | r6 (w : BitVec 48)
  | s8 (w : Byte)
  deriving DecidableEq, Repr

/-- A word and the interface it arrives on: "A decoder knows the length of every word from the interface it
arrives on: H24 from the host, U24 from the ROM" (R107), and the wire encodings on the bus. -/
inductive Encoded where
  | h24 (w : Word24)
  | u24 (w : Word24)
  | wire (f : WireFrame)
  deriving DecidableEq, Repr

end Sys2Proof
end

