-- ==== Sys2Proof/Config.lean ====
section
/-! DEFINITION. What an implementation fixes (00_scope.md R10, R11, R22) and the free values: constants with no
body, of which nothing can be proved. -/

namespace Sys2Proof

/-- R10, R102: the sensor's bus address. -/
def Config.devAddr : BitVec 7 := 0x38#7

/-- R10, R103: the calibration-initialisation command, sent in this order. -/
def Config.cmdCalinit : List Byte := [0xE1#8, 0x08#8, 0x00#8]

/-- R10, R103: the trigger-measurement command, sent in this order. -/
def Config.cmdTrigger : List Byte := [0xAC#8, 0x33#8, 0x00#8]

/-- R10: bytes in a command write transaction. -/
def Config.cmdLen : BitVec 8 := 3#8

/-- R10: bytes in a read transaction. -/
def Config.rawLen : BitVec 8 := 6#8

/-- R10, R105: "calibrated & idle (valid reading)". -/
def Config.stIdleCal : Byte := 0x19#8

/-- R10, R105: "busy/incomplete". -/
def Config.stBusyVal : Byte := 0x99#8

/-- R10: temperature multiplier. -/
def Config.kTMul : Nat := 625

/-- R10: temperature divisor, 2^15. -/
def Config.kTDiv : Nat := 32768

/-- R10: temperature offset subtracted. -/
def Config.kTOff : Int := 5000

/-- R10, R196: humidity divisor, kept as the source writes it (90_conflicts.md C2). -/
def Config.kHDiv : Nat := 10486

/-- R10: the rounding digit threshold of the formatter. -/
def Config.roundAt : Nat := 5

/-- R11: the three delay parameters, each an unsigned number of microseconds of 20 bits. -/
structure Delays where
  tInit : BitVec 20
  tMeas : BitVec 20
  tPost : BitVec 20
  deriving DecidableEq, Repr

/-- R11: the source's figures, 40, 75000 and 420 microseconds. Statements quantify over `Delays`. -/
def Config.defaultDelays : Delays := { tInit := 40#20, tMeas := 75000#20, tPost := 420#20 }

/-- FREE VALUE (R45, R138, log 7): the byte the environment returns to the n-th read, when none is listed. -/
opaque Config.drawnByte : Nat → Byte

/-- FREE VALUE (R226, U5, log 9): the undefined contents of STR beyond the terminator. -/
opaque Config.freeByte : Nat → Byte

/-- FREE CHOICE (R29, log 10): whether UPC + 1 at 31 wraps to 0 (true) or saturates at 31 (false); "equally
conforming". -/
opaque Config.upcWraps : Bool

/-- FREE VALUE (R41, log 11): TR_XFER after its 256th count, which its 8 bits do not hold. -/
opaque Config.xferOverflow : BitVec 8

end Sys2Proof
end

