-- ==== Sys2Proof/Syntax.lean ====
section
/-! DEFINITION. The instructions: one constructor per row of spec/opcode_table.json (30_encoding.md R92, R98,
R102 to R105), with exactly the operands the row's rule gives it. -/

namespace Sys2Proof

inductive Instr where
  /-- INIT busSpeed (R160): the argument is an opaque 16-bit value (R93). -/
  | init (busSpeed : BitVec 16)
  /-- READ (R165): its argument field is ignored (R94). -/
  | read
  /-- GETTH (R190): its argument field is ignored (R94). -/
  | getth
  /-- FMT value100 (R220): the 16-bit pattern of an int16 (R95). -/
  | fmt (value100 : BitVec 16)
  /-- SADDR a (R131). -/
  | saddr (a : BitVec 7)
  /-- SCNT n (R132). -/
  | scnt (n : BitVec 8)
  /-- SRD (R133). -/
  | srd
  /-- SWR (R134). -/
  | swr
  /-- START (R135). -/
  | start
  /-- STOP (R136). -/
  | stop
  /-- WB b (R137). -/
  | wb (b : Byte)
  /-- RB i (R138): the field has 3 bits; 6 and 7 name no element (R99). -/
  | rb (i : BitVec 3)
  /-- DLY n (R139): microseconds. -/
  | dly (n : BitVec 20)
  /-- END (R140). -/
  | endOp
  /-- DEV_ADDR, the device address 0x38 (R102). -/
  | devAddr
  /-- CALINIT, the calibration-initialisation frame (R103). -/
  | calinit
  /-- TRIGGER, the trigger-measurement frame (R103). -/
  | trigger
  /-- RESP, the response frame (R104). -/
  | resp (status : Byte) (humidity temperature : BitVec 20)
  /-- STATUS, the status byte (R105). -/
  | status (b : Byte)
  deriving DecidableEq, Repr

/-- The pseudo-operations of R109, shorthands for lists of micro-operations. -/
inductive Pseudo where
  | cfgw (n : BitVec 8)
  | cfgr (n : BitVec 8)
  | wr3 (a b c : Byte)
  | rd6
  deriving DecidableEq, Repr

end Sys2Proof
end

