-- ==== Sys2Proof/WellFormed.lean ====
section
/-! DEFINITION. Which instructions the encodings can express. Every field's width is in its type; the one check
left is R99: "RB's index must be 0 to 5; 6 and 7 name no RAW element". -/

namespace Sys2Proof

/-- R99: the operand of RB names an element of RAW. Every other constructor is well-formed at all operands. -/
def Instr.wellFormed : Instr → Bool
  | .init _ => true
  | .read => true
  | .getth => true
  | .fmt _ => true
  | .saddr _ => true
  | .scnt _ => true
  | .srd => true
  | .swr => true
  | .start => true
  | .stop => true
  | .wb _ => true
  | .rb i => decide (i.toNat ≤ 5)
  | .dly _ => true
  | .endOp => true
  | .devAddr => true
  | .calinit => true
  | .trigger => true
  | .resp _ _ _ => true
  | .status _ => true

end Sys2Proof
end

