-- ==== Sys2Proof/Decode.lean ====
section
/-! DEFINITION. Decoding of the formats of 30_encoding.md (H24, U24, A7, W3, R6, S8), total and rejecting by name,
and the encoder beside it, both written from the tables R91 to R105. -/

namespace Sys2Proof

/-- Why a word encodes nothing. -/
inductive DecodeError where
  /-- R96: `hop` = 0x00 or 0x05 to 0xFF. -/
  | reservedHostOpcode
  /-- R101: `kind` = 0x0 or 0xB to 0xF. -/
  | reservedKind
  /-- R99: a must-be-zero bit is not zero. -/
  | mustBeZero
  /-- R99: RB with index 6 or 7. -/
  | noSuchRawElement
  /-- R61, R102: the block addresses exactly one device. -/
  | otherDevice
  /-- R103: "never any other frame". -/
  | otherFrame
  deriving DecidableEq, Repr

/-- R91: `hop`, bits 23:16. -/
def hopField (w : Word24) : BitVec 8 := w.extractLsb' 16 8

/-- R91: `harg`, bits 15:0. -/
def hargField (w : Word24) : BitVec 16 := w.extractLsb' 0 16

/-- R97: `kind`, bits 23:20. -/
def kindField (w : Word24) : BitVec 4 := w.extractLsb' 20 4

/-- R97: `uarg`, bits 19:0. -/
def uargField (w : Word24) : BitVec 20 := w.extractLsb' 0 20

/-- R92 to R96: the operation a host opcode selects, with its argument. -/
def decodeHop (hop : BitVec 8) (harg : BitVec 16) : Except DecodeError Instr :=
  match hop.toNat with
  | 0x01 => .ok (.init harg)
  | 0x02 => .ok .read
  | 0x03 => .ok .getth
  | 0x04 => .ok (.fmt harg)
  | _ => .error .reservedHostOpcode

/-- R91: one host command word. -/
def decodeHost (w : Word24) : Except DecodeError Instr := decodeHop (hopField w) (hargField w)

/-- R99: an operand of 7 bits, the 13 bits above it zero. -/
def operand7 (u : BitVec 20) : Except DecodeError (BitVec 7) :=
  if u.extractLsb' 7 13 = 0#13 then .ok (u.extractLsb' 0 7) else .error .mustBeZero

/-- R99: an operand of 8 bits, the 12 bits above it zero. -/
def operand8 (u : BitVec 20) : Except DecodeError (BitVec 8) :=
  if u.extractLsb' 8 12 = 0#12 then .ok (u.extractLsb' 0 8) else .error .mustBeZero

/-- R99: no operand, all 20 bits zero. -/
def operand0 (u : BitVec 20) : Except DecodeError Unit :=
  if u = 0#20 then .ok () else .error .mustBeZero

/-- R98, R99: the RAW index of RB, 0 to 5, the 17 bits above its field zero. -/
def operandIndex (u : BitVec 20) : Except DecodeError (BitVec 3) :=
  if u.extractLsb' 3 17 = 0#17 then
    if (u.extractLsb' 0 3).toNat ≤ 5 then .ok (u.extractLsb' 0 3) else .error .noSuchRawElement
  else .error .mustBeZero

/-- R98, R99, R101: the micro-operation a kind selects, with its operand. -/
def decodeKind (kind : BitVec 4) (uarg : BitVec 20) : Except DecodeError Instr :=
  match kind.toNat with
  | 0x1 => (operand7 uarg).map Instr.saddr
  | 0x2 => (operand8 uarg).map Instr.scnt
  | 0x3 => (operand0 uarg).map fun _ => Instr.srd
  | 0x4 => (operand0 uarg).map fun _ => Instr.swr
  | 0x5 => (operand0 uarg).map fun _ => Instr.start
  | 0x6 => (operand0 uarg).map fun _ => Instr.stop
  | 0x7 => (operand8 uarg).map Instr.wb
  | 0x8 => (operandIndex uarg).map Instr.rb
  | 0x9 => .ok (.dly uarg)
  | 0xA => (operand0 uarg).map fun _ => Instr.endOp
  | _ => .error .reservedKind

/-- R97: one micro-operation word. -/
def decodeMicro (w : Word24) : Except DecodeError Instr := decodeKind (kindField w) (uargField w)

/-- R102 to R105: one wire frame. -/
def decodeWire : WireFrame → Except DecodeError Instr
  | .a7 w => if w = 0x38#7 then .ok .devAddr else .error .otherDevice
  | .w3 w =>
    if w = 0xE10800#24 then .ok .calinit
    else if w = 0xAC3300#24 then .ok .trigger
    else .error .otherFrame
  | .r6 w => .ok (.resp (w.extractLsb' 40 8) (w.extractLsb' 20 20) (w.extractLsb' 0 20))
  | .s8 w => .ok (.status w)

/-- R107: the interface a word arrives on selects its format. -/
def decode : Encoded → Except DecodeError Instr
  | .h24 w => decodeHost w
  | .u24 w => decodeMicro w
  | .wire f => decodeWire f

/-- R91: a host command word from its two fields, `hop` in bits 23:16 and `harg` in bits 15:0. -/
def hostWord (hop : BitVec 8) (harg : BitVec 16) : Word24 := (hop.setWidth 24 <<< 16) ||| harg.setWidth 24

/-- R97: a micro-operation word from its two fields, `kind` in bits 23:20 and `uarg` in bits 19:0. -/
def microWord (kind : BitVec 4) (uarg : BitVec 20) : Word24 := (kind.setWidth 24 <<< 20) ||| uarg.setWidth 24

/-- R104: a response frame from its three fields, `status` in bits 47:40, `humidity` in bits 39:20, `temperature` in bits
19:0. -/
def respWord (status : Byte) (humidity temperature : BitVec 20) : BitVec 48 :=
  (status.setWidth 48 <<< 40) ||| (humidity.setWidth 48 <<< 20) ||| temperature.setWidth 48

/-- The word of an instruction and the interface it belongs to, from the tables R92, R98, R102 to R105. READ and
GETTH are written with an argument field of 0 (R94: it is ignored). -/
def encode : Instr → Encoded
  | .init b => .h24 (hostWord 0x01#8 b)
  | .read => .h24 (hostWord 0x02#8 0#16)
  | .getth => .h24 (hostWord 0x03#8 0#16)
  | .fmt v => .h24 (hostWord 0x04#8 v)
  | .saddr a => .u24 (microWord 0x1#4 (a.setWidth 20))
  | .scnt n => .u24 (microWord 0x2#4 (n.setWidth 20))
  | .srd => .u24 (microWord 0x3#4 0#20)
  | .swr => .u24 (microWord 0x4#4 0#20)
  | .start => .u24 (microWord 0x5#4 0#20)
  | .stop => .u24 (microWord 0x6#4 0#20)
  | .wb b => .u24 (microWord 0x7#4 (b.setWidth 20))
  | .rb i => .u24 (microWord 0x8#4 (i.setWidth 20))
  | .dly n => .u24 (microWord 0x9#4 n)
  | .endOp => .u24 (microWord 0xA#4 0#20)
  | .devAddr => .wire (.a7 0x38#7)
  | .calinit => .wire (.w3 0xE10800#24)
  | .trigger => .wire (.w3 0xAC3300#24)
  | .resp s h t => .wire (.r6 (respWord s h t))
  | .status b => .wire (.s8 b)

/-- The bits of an encoded word, as the opcode table numbers them. -/
def Encoded.bits : Encoded → Nat
  | .h24 w => w.toNat
  | .u24 w => w.toNat
  | .wire (.a7 w) => w.toNat
  | .wire (.w3 w) => w.toNat
  | .wire (.r6 w) => w.toNat
  | .wire (.s8 w) => w.toNat

/-- Which interface a row of the opcode table belongs to, read from its width and bits (log 15): a 24-bit word with
a zero top digit is a host word, the two command frames are W3, every other 24-bit word is U24; of the 8-bit words
0x38 is the device address and the rest are status bytes; 48 bits are a response frame. -/
def tableEncoded (nbits w : Nat) : Option Encoded :=
  if 2 ^ nbits ≤ w then none
  else if nbits = 24 then
    if kindField (BitVec.ofNat 24 w) = 0#4 then some (.h24 (BitVec.ofNat 24 w))
    else if w = 0xE10800 ∨ w = 0xAC3300 then some (.wire (.w3 (BitVec.ofNat 24 w)))
    else some (.u24 (BitVec.ofNat 24 w))
  else if nbits = 7 then some (.wire (.a7 (BitVec.ofNat 7 w)))
  else if nbits = 8 then
    if w = 0x38 then some (.wire (.a7 0x38#7)) else some (.wire (.s8 (BitVec.ofNat 8 w)))
  else if nbits = 48 then some (.wire (.r6 (BitVec.ofNat 48 w)))
  else none

/-- The instruction the decoder reads from the bits of an opcode-table row, none where it refuses. -/
def decodeTableWord (nbits w : Nat) : Option Instr :=
  match tableEncoded nbits w with
  | none => none
  | some e => (decode e).toOption

end Sys2Proof
end

