-- ==== Sys2Proof/Machine/Rom.lean ====
section
/-! DEFINITION. The contents of the micro-program ROM (30_encoding.md R100), as a function of the three delay
parameters of 00_scope.md R11. -/

namespace Sys2Proof.Machine

/-- R100, words 0 to 31, written as the table gives them; words 8, 17 and 29 hold the delay parameters. Word 31 is
reserved and never fetched. -/
def romOf (d : Delays) : Vector Word24 32 :=
  #v[0x100038#24, 0x200003#24, 0x400000#24, 0x500000#24,
     0x7000E1#24, 0x700008#24, 0x700000#24, 0x600000#24,
     microWord 0x9#4 d.tInit, 0xA00000#24,
     0x200003#24, 0x400000#24, 0x500000#24,
     0x7000AC#24, 0x700033#24, 0x700000#24, 0x600000#24,
     microWord 0x9#4 d.tMeas,
     0x200006#24, 0x300000#24, 0x500000#24,
     0x800000#24, 0x800001#24, 0x800002#24, 0x800003#24, 0x800004#24, 0x800005#24, 0x600000#24,
     0x400000#24,
     microWord 0x9#4 d.tPost, 0xA00000#24,
     0x000000#24]

/-- R62, R160: entry index of the INIT micro-program. -/
def initEntry : BitVec 5 := 0#5

/-- R62, R165, R190: entry index of the READ micro-program, which GETTH runs too. -/
def readEntry : BitVec 5 := 10#5

end Sys2Proof.Machine
end

