-- ==== Sys2Proof/Machine/State.lean ====
section
/-! DEFINITION. The whole state of the block and of its collaborators' configuration (10_state.md R20 to R47), as
plain data; the reasons a step can stop; the state after reset (R47). -/

namespace Sys2Proof.Machine

/-- TR_MODE (R41): 0 = write, 1 = read. -/
inductive Direction where
  | write
  | read
  deriving DecidableEq, Repr

/-- The transport configuration of R41. -/
structure Transport where
  /-- TR_ADDR, written by SADDR. -/
  addr : BitVec 7
  /-- TR_NBYTES, written by SCNT. -/
  nbytes : BitVec 8
  /-- TR_MODE, written by SWR and SRD. -/
  mode : Direction
  /-- TR_OPEN, set by START, cleared by STOP. -/
  isOpen : Bool
  /-- TR_XFER, cleared by START, counted by WB and RB. -/
  xfer : BitVec 8
  deriving DecidableEq, Repr

/-- The alphabet of the event history (R46), one event per collaborator primitive. -/
inductive Event where
  | setAddress (a : BitVec 7)
  | setByteCount (n : BitVec 8)
  | setReadMode
  | setWriteMode
  | start
  | stop
  | writeByte (b : Byte)
  | readByte (b : Byte)
  | delay (n : BitVec 20)
  deriving DecidableEq, Repr

/-- The machine stops without a next state. -/
inductive Fault where
  /-- Raised by the step, by every micro-operation and by every wire frame of a block that is waiting for a primitive
  that never returns: "the block waits for ever (stuck)" (R144, log 8). Safe: nothing is concluded. -/
  | stuck
  deriving DecidableEq, Repr

/-- The model gives no next state: "refused" of R17, R256. Every one is safe: the run is marked refused and nothing is
concluded from it. -/
inductive Refusal where
  /-- Raised only by `exec`'s arm of an instruction that has no meaning yet. Safe. -/
  | notModelled (mnemonic : String)
  /-- Raised by INIT, READ, GETTH, FMT with ACTIVE = 1 (R256), and by a host read with ACTIVE = 1 (R260). Safe. -/
  | busy
  /-- Raised by INIT with BOUND = 1 (R256). Safe. -/
  | alreadyBound
  /-- Raised by READ and GETTH with BOUND = 0 (R256). Safe. -/
  | notBound
  /-- Raised by a micro-operation or wire frame with ACTIVE = 0: "the sequencer has no step" (R130, log 16). Safe. -/
  | sequencerIdle
  /-- Raised by RB with an index above 5, which no decoded word has (R60, R99). Safe. -/
  | noSuchRawElement
  /-- Raised by the step at a word that decodes to nothing (R96, R99, R101). Safe. -/
  | reserved (e : DecodeError)
  /-- Raised by a host read of a register before any host operation that writes it has completed, which the spec itself
  refuses (R21, R251, R260, U12, D9). No instruction and no step raises it. Safe. -/
  | noValue
  deriving DecidableEq, Repr

/-- Every piece of state the spec names, then the model's own fields. -/
structure State where
  /-- UPC (R29). -/
  upc : BitVec 5
  /-- ACTIVE (R30). -/
  active : Bool
  /-- OP (R31): 1 = INIT, 2 = READ, 3 = GETTH. -/
  op : BitVec 2
  /-- BOUND (R32). -/
  bound : Bool
  /-- BUSSPEED (R37). -/
  busSpeed : BitVec 16
  /-- The micro-program ROM (R40, R100); no operation writes it (R75). -/
  rom : Vector Word24 32
  /-- RAW[0] to RAW[5] (R23). -/
  raw : Vector Byte 6
  /-- HRAW (R24). -/
  hraw : BitVec 20
  /-- TRAW (R24). -/
  traw : BitVec 20
  /-- TEMP100 (R25), the pattern of an int16. -/
  temp100 : BitVec 16
  /-- HUMID100 (R26), the pattern of an int16. -/
  humid100 : BitVec 16
  /-- STATUS (R35). -/
  status : Byte
  /-- STR[0] to STR[6] (R27). -/
  str : Vector Byte 7
  /-- STRLEN (R27). -/
  strlen : BitVec 3
  /-- Which elements of RAW hold a value (R21, R47). -/
  rawWritten : Vector Bool 6
  /-- Whether HRAW, TRAW, TEMP100, HUMID100, STATUS, which are written together (R191), hold a value (R21, R47). -/
  convWritten : Bool
  /-- Whether an FMT has written STR and STRLEN (R21, R27, R47). -/
  strWritten : Bool
  /-- TR_ADDR, TR_NBYTES, TR_MODE, TR_OPEN, TR_XFER (R41). -/
  tr : Transport
  /-- EV (R46), oldest event first. -/
  ev : List Event
  /-- A primitive has been issued and has not returned (R29, R43). One that returns does so within the step that issues
  it, so between steps this is true only where it never will (R144, log 8). -/
  waiting : Bool
  /-- The MODEL's: the host words still to be presented, next one first (log 1). -/
  hostq : List Word24
  /-- The MODEL's: wire frames presented whole, next one first (log 14). -/
  wire : List WireFrame
  /-- The MODEL's: the bytes the transport will return next; after them the free value `Config.drawnByte` (log 7). -/
  env : List Byte
  /-- The MODEL's: none, every primitive returns; some n, n more return and the next one issued never does (R144, log 8). -/
  hangIn : Option Nat
  /-- The MODEL's: how many bytes have been drawn (log 7). -/
  draws : Nat
  /-- The MODEL's: how many free bytes have been used (log 9). -/
  frees : Nat
  deriving DecidableEq, Repr

/-- R47, R280: the block right after reset, idle and unbound, its ROM with the default delays (R11). Registers with no
value and the unspecified UPC, OP and TR_* stand at 0 (DESIGN CHOICE, log 4, 5, 6). -/
def State.reset : State where
  upc := 0
  active := false
  op := 0
  bound := false
  busSpeed := 0
  rom := romOf Config.defaultDelays
  raw := Vector.replicate 6 0
  hraw := 0
  traw := 0
  temp100 := 0
  humid100 := 0
  status := 0
  str := Vector.replicate 7 0
  strlen := 0
  rawWritten := Vector.replicate 6 false
  convWritten := false
  strWritten := false
  tr := { addr := 0, nbytes := 0, mode := .write, isOpen := false, xfer := 0 }
  ev := []
  waiting := false
  hostq := []
  wire := []
  env := []
  hangIn := none
  draws := 0
  frees := 0

end Sys2Proof.Machine
end

