-- ==== Sys2Proof/Machine/Operands.lean ====
section
/-! DEFINITION. Operand forms (30_encoding.md R95, R99) and the next values of the counters UPC and TR_XFER. -/

namespace Sys2Proof.Machine

/-- R95: FMT's operand, `harg` when `harg < 0x8000` and `harg - 65536` otherwise. -/
def value100 (harg : BitVec 16) : Int :=
  if harg.toNat < 0x8000 then (harg.toNat : Int) else (harg.toNat : Int) - 65536

/-- R15: the 16-bit two's-complement pattern of an int16 result. -/
def int16Pattern (v : Int) : BitVec 16 := BitVec.ofInt 16 v

/-- R98, R99: the element of RAW that RB's operand names; 6 and 7 name none. -/
def rawIndex (i : BitVec 3) : Option (Fin 6) :=
  if h : i.toNat < 6 then some ⟨i.toNat, h⟩ else none

/-- R29: `UPC + 1`; at 31 it wraps to 0 or saturates, "equally conforming" (log 10). -/
def nextUpc (u : BitVec 5) : BitVec 5 :=
  if u = 31#5 then (if Config.upcWraps then 0#5 else 31#5) else u + 1#5

/-- R137, R138: `TR_XFER + 1`; past the 8 bits of R41 the spec states no value (log 11). -/
def nextXfer (x : BitVec 8) : BitVec 8 :=
  if x = 255#8 then Config.xferOverflow else x + 1#8

end Sys2Proof.Machine
end

