-- ==== Sys2Proof/Machine/Flags.lean ====
section
/-! DEFINITION. The flags of the spec: the host operation latch OP (10_state.md R31), the formatter's transient
conditions (R33), and the two wires decoded from STATUS (R36). There are no arithmetic condition codes (R34). -/

namespace Sys2Proof.Machine

/-- R31: OP while INIT runs. -/
def opInit : BitVec 2 := 1#2

/-- R31: OP while READ runs. -/
def opRead : BitVec 2 := 2#2

/-- R31: OP while GETTH runs. -/
def opGetth : BitVec 2 := 3#2

/-- R33, R221: NEG, `value100 < 0`; tested on the input, not on the rounded result (R224). -/
def negFlag (harg : BitVec 16) : Bool := decide (value100 harg < 0)

/-- R33, R223: the round-up condition `R >= 5`. -/
def roundsUp (r : Nat) : Bool := decide (Config.roundAt ≤ r)

/-- R33, R223: the carry condition, D = 10 after the increment. -/
def carries (d : Nat) : Bool := decide (d = 10)

/-- R36: bit 7 of a status byte, busy (R35, R105). -/
def busyBit (b : Byte) : Bool := b.getLsbD 7

/-- R36: bit 3 of a status byte, calibrated (R35, R105). -/
def calBit (b : Byte) : Bool := b.getLsbD 3

/-- R36: the wire ST_BUSY = STATUS[7]. -/
def stBusy (s : State) : Bool := busyBit s.status

/-- R36: the wire ST_CAL = STATUS[3]. -/
def stCal (s : State) : Bool := calBit s.status

end Sys2Proof.Machine
end

