-- ==== Sys2Proof/Machine/Ops.lean ====
section
/-! DEFINITION. The named operations every meaning is written over: reading the spaces ROM, RAW and STR
(20_memory.md R60), issuing a collaborator primitive and waiting for its return (00_scope.md R16), drawing a byte
(R45), writing each register group, and the power cycle (70_reset_and_hazards.md R280, R281).

The spec describes no exception: "no state is saved, no mode or mask changes, control goes nowhere" (R250, R255), so
there is no operation that takes one and none that returns from one. -/

namespace Sys2Proof.Machine

/-- What a step or a meaning answers. -/
abbrev Out := Host.Outcome State Fault Refusal

/-- Run `f` after a meaning that answers a next state; a stop stays a stop. -/
def andThen (o : Out) (f : State → Out) : Out :=
  match o with
  | .next s => f s
  | .fault r => .fault r
  | .refused r => .refused r

/-! ### The three indexed spaces (R60) -/

/-- The indexed spaces of R60. -/
inductive Space where
  | rom
  | raw
  | str
  deriving DecidableEq, Repr

/-- How many elements a space has (R60). -/
def Space.size : Space → Nat
  | .rom => 32
  | .raw => 6
  | .str => 7

/-- `MemRead(space, addr, 1)` of R60, zero-extended to the widest element; none at an index that does not exist. -/
def memRead (sp : Space) (addr : Nat) (s : State) : Option Word24 :=
  match sp with
  | .rom => s.rom[addr]?
  | .raw => s.raw[addr]?.map (BitVec.setWidth 24)
  | .str => s.str[addr]?.map (BitVec.setWidth 24)

/-- `MemRead(space, addr, n)` of R60: n elements in index order, none if one of them does not exist. -/
def memReadN (sp : Space) (addr : Nat) : Nat → State → Option (List Word24)
  | 0, _ => some []
  | n + 1, s =>
    match memRead sp addr s, memReadN sp (addr + 1) n s with
    | some v, some vs => some (v :: vs)
    | _, _ => none

/-- `MemRead(ROM, UPC, 1)` of R130. -/
def romWord (s : State) : Word24 := s.rom[s.upc.toNat]'s.upc.isLt

/-! ### Issuing a primitive -/

/-- `emit E` of R16: append the event (R46: the primitives issued), then block until the collaborator returns; the block
is left waiting if it never does (R144). -/
def issue (e : Event) (s : State) : State :=
  match s.hangIn with
  | none => { s with ev := s.ev ++ [e] }
  | some 0 => { s with ev := s.ev ++ [e], waiting := true }
  | some (n + 1) => { s with ev := s.ev ++ [e], hangIn := some n }

/-- Run `f` unless the block is waiting for a primitive that never returns: what follows the primitive is not done. -/
def onReturn (f : State → Out) (s : State) : Out := if s.waiting then .next s else f s

/-- R29: every micro-operation except END completes with `UPC <- UPC + 1`. -/
def State.advance (s : State) : State := { s with upc := nextUpc s.upc }

/-- R130: enabled when ACTIVE = 1; "the next step cannot begin before" the primitive issued last has returned, so a
waiting block is stuck (R144). -/
def enabled (f : State → Out) (s : State) : Out :=
  if s.active then
    if s.waiting then .fault .stuck else f s
  else .refused .sequencerIdle

/-- The shape R131 to R139 share, in the order of their pseudocode: issue the primitive; once it has returned, write what
it writes and advance. One that never returns leaves UPC at the micro-operation "issued and not yet returned" (R29). -/
def microStep (e : Event) (upd : State → State) (s : State) : Out :=
  enabled (fun t => onReturn (fun u => .next (upd u).advance) (issue e t)) s

/-! ### The transport configuration (R41) -/

/-- R131: `TR_ADDR <- a`. -/
def State.setAddr (a : BitVec 7) (s : State) : State := { s with tr := { s.tr with addr := a } }

/-- R132: `TR_NBYTES <- n`. -/
def State.setNbytes (n : BitVec 8) (s : State) : State := { s with tr := { s.tr with nbytes := n } }

/-- R133, R134: `TR_MODE <- m`. -/
def State.setMode (m : Direction) (s : State) : State := { s with tr := { s.tr with mode := m } }

/-- R135: `TR_OPEN <- 1; TR_XFER <- 0`. -/
def State.openTransfer (s : State) : State := { s with tr := { s.tr with isOpen := true, xfer := 0#8 } }

/-- R136: `TR_OPEN <- 0`. -/
def State.closeTransfer (s : State) : State := { s with tr := { s.tr with isOpen := false } }

/-- R137, R138: `TR_XFER <- TR_XFER + 1`. -/
def State.countTransfer (s : State) : State := { s with tr := { s.tr with xfer := nextXfer s.tr.xfer } }

/-! ### Draws and RAW -/

/-- `draw8()` of R16, R45: the next byte the environment supplies, the free value where none is listed (log 7). -/
def drawnByte (s : State) : Byte :=
  match s.env with
  | [] => Config.drawnByte s.draws
  | b :: _ => b

/-- The environment after one draw. -/
def State.consume (s : State) : State := { s with env := s.env.tail, draws := s.draws + 1 }

/-- R138: `RAW[i] <- b`; the element holds a value from then on (R21). -/
def State.setRaw (i : Fin 6) (b : Byte) (s : State) : State :=
  { s with raw := s.raw.set i b, rawWritten := s.rawWritten.set i true }

/-- R137: the transfer of one byte to the bus. -/
def sendByte (b : Byte) (s : State) : Out := microStep (.writeByte b) State.countTransfer s

/-- R137: bytes sent first to last, none after one whose primitive never returns. -/
def sendBytes : List Byte → State → Out
  | [], s => .next s
  | b :: bs, s => andThen (sendByte b s) (onReturn (sendBytes bs))

/-- R138: the transfer of one drawn byte from the bus into RAW[i]. -/
def receiveByte (i : Fin 6) (s : State) : Out :=
  microStep (.readByte (drawnByte s)) (fun t => (t.setRaw i (drawnByte s)).countTransfer) s.consume

/-- R138: bytes received first to last, each into the RAW element listed for it, none after one whose primitive never
returns. -/
def receiveBytes : List (Fin 6) → State → Out
  | [], s => .next s
  | i :: is, s => andThen (receiveByte i s) (onReturn (receiveBytes is))

/-- The environment with these bytes as the next the transport returns. -/
def State.supply (bs : List Byte) (s : State) : State := { s with env := bs ++ s.env }

/-! ### Host operations, conversion results, string -/

/-- R160, R165, R190: acceptance, `OP <- op; UPC <- entry; ACTIVE <- 1`. -/
def State.dispatch (op : BitVec 2) (entry : BitVec 5) (s : State) : State :=
  { s with op := op, upc := entry, active := true }

/-- R160: `BUSSPEED <- harg; BOUND <- 1`. -/
def State.bind (busSpeed : BitVec 16) (s : State) : State := { s with busSpeed := busSpeed, bound := true }

/-- R191: the five results, written together. -/
def State.setResults (hraw traw : BitVec 20) (temp100 humid100 : BitVec 16) (status : Byte) (s : State) : State :=
  { s with
    hraw := hraw
    traw := traw
    temp100 := temp100
    humid100 := humid100
    status := status
    convWritten := true }

/-- R140: `ACTIVE <- 0`, UPC unchanged. -/
def State.finish (s : State) : State := { s with active := false }

/-- R226: the text and its terminator from STR[0] up; the elements above hold free values (U5, log 9). -/
def State.writeString (text : List Byte) (s : State) : State :=
  { s with
    str := Vector.ofFn fun i : Fin 7 => ((text ++ [0x00#8])[i.val]?).getD (Config.freeByte (s.frees + i.val))
    strlen := BitVec.ofNat 3 text.length
    strWritten := true
    frees := s.frees + 7 }

/-! ### Power cycle -/

/-- R280, R281, U8: a reset at any moment. The block takes the state of R47. What U8 leaves at any value is the caller's:
the transport configuration `tr`, whether and when a collaborator hangs after the reset (`hangIn`, whatever it did
before), and the bytes it will return (`env`). No primitive is outstanding after it, no frame is presented whole, and the
host's words still to come and the counters of free values go on (DESIGN CHOICE, log 18). No step performs it (log 18). -/
def powerCycle (tr : Transport) (hangIn : Option Nat) (env : List Byte) (s : State) : State :=
  { State.reset with
    rom := s.rom
    tr := tr
    hostq := s.hostq
    env := env
    hangIn := hangIn
    draws := s.draws
    frees := s.frees }

end Sys2Proof.Machine
end

