-- ==== Sys2Proof/Machine/Driver.lean ====
section
/-! DEFINITION. The protocol driver's host operations (41_protocol_driver.md): INIT and READ, accepted by the table of
60_exceptions.md R256. -/

namespace Sys2Proof.Machine

/-- R256: READ and GETTH are accepted with ACTIVE = 0 and BOUND = 1. -/
def acceptMeasurement (op : BitVec 2) (s : State) : Out :=
  if s.active then .refused .busy
  else if s.bound then .next (s.dispatch op readEntry)
  else .refused .notBound

/-- R160: `BUSSPEED <- harg; BOUND <- 1; OP <- 1; UPC <- 0; ACTIVE <- 1`, with ACTIVE = 0 and BOUND = 0 (R256). -/
def execInit (busSpeed : BitVec 16) (s : State) : Out :=
  if s.active then .refused .busy
  else if s.bound then .refused .alreadyBound
  else .next ((s.bind busSpeed).dispatch opInit initEntry)

/-- R165: `OP <- 2; UPC <- 10; ACTIVE <- 1`. -/
def execRead (s : State) : Out := acceptMeasurement opRead s

end Sys2Proof.Machine
end

