-- ==== Sys2Proof/Machine/Converter.lean ====
section
/-! DEFINITION. The raw-to-physical converter (42_converter.md): unpacker, scaler, the conversion GETTH's END performs,
and the host operation GETTH. -/

namespace Sys2Proof.Machine

/-- R64: the packed value P[39:0] = {RAW[1], RAW[2], RAW[3], RAW[4], RAW[5]}. -/
def packed (raw : Vector Byte 6) : BitVec 40 :=
  (raw[1].setWidth 40 <<< 32) ||| (raw[2].setWidth 40 <<< 24) ||| (raw[3].setWidth 40 <<< 16) |||
    (raw[4].setWidth 40 <<< 8) ||| raw[5].setWidth 40

/-- R192: `W24 = (RAW[1] << 16) | (RAW[2] << 8) | RAW[3]`, operands zero-extended to 24 bits before shifting. -/
def w24 (r1 r2 r3 : Byte) : BitVec 24 :=
  (r1.setWidth 24 <<< 16) ||| (r2.setWidth 24 <<< 8) ||| r3.setWidth 24

/-- R192: `HRAW = W24 >> 4`, a logical shift. -/
def unpackH (r1 r2 r3 : Byte) : BitVec 20 := (w24 r1 r2 r3 >>> 4).setWidth 20

/-- R193: `TRAW = ((RAW[3] & 0x0F) << 16) | (RAW[4] << 8) | RAW[5]`, the mask before the shift. -/
def unpackT (r3 r4 r5 : Byte) : BitVec 20 :=
  ((r3.setWidth 20 &&& 0x0F#20) <<< 16) ||| (r4.setWidth 20 <<< 8) ||| r5.setWidth 20

/-- R195: `TPROD = TRAW * 625`, exact. -/
def tempProduct (traw : BitVec 20) : Nat := traw.toNat * Config.kTMul

/-- R195: `TQ = TPROD / 32768`, truncated. -/
def tempQuotient (traw : BitVec 20) : Nat := tempProduct traw / Config.kTDiv

/-- R195: `TEMP100 = TQ - 5000`, a signed subtraction, as an integer. -/
def temperature (traw : BitVec 20) : Int := (tempQuotient traw : Int) - Config.kTOff

/-- R195: TEMP100 as stored, 16-bit two's complement. -/
def scaleT (traw : BitVec 20) : BitVec 16 := int16Pattern (temperature traw)

/-- R196: `HUMID100 = HRAW / 10486`, truncated, as a number. -/
def humidity (hraw : BitVec 20) : Nat := hraw.toNat / Config.kHDiv

/-- R196: HUMID100 as stored, a non-negative int16. -/
def scaleH (hraw : BitVec 20) : BitVec 16 := int16Pattern (humidity hraw)

/-- HRAW of a RAW register file (R191, R192). -/
def hrawOf (raw : Vector Byte 6) : BitVec 20 := unpackH raw[1] raw[2] raw[3]

/-- TRAW of a RAW register file (R191, R193). -/
def trawOf (raw : Vector Byte 6) : BitVec 20 := unpackT raw[3] raw[4] raw[5]

/-- R191, R201: the conversion, five writes together; STATUS is RAW[0] unmodified. -/
def convert (s : State) : State :=
  s.setResults (hrawOf s.raw) (trawOf s.raw) (scaleT (trawOf s.raw)) (scaleH (hrawOf s.raw)) s.raw[0]

/-- R190: `OP <- 3; UPC <- 10; ACTIVE <- 1`; the conversion is END's (R140). -/
def execGetth (s : State) : Out := acceptMeasurement opGetth s

end Sys2Proof.Machine
end

