-- ==== Sys2Proof/Machine/Formatter.lean ====
section
/-! DEFINITION. The fixed-point formatter (43_formatter.md): the four steps of R221 to R225 and the host operation
FMT. -/

namespace Sys2Proof.Machine

/-- R221, R222: `X = |value100|`, the mathematical absolute value, 0 to 32768. -/
def magnitude (harg : BitVec 16) : Nat := (value100 harg).natAbs

/-- R221: the working values `W = X / 100`, `D = F / 10`, `R = F mod 10`, with `F = X mod 100`. -/
def decompose (x : Nat) : Nat × Nat × Nat := (x / 100, x % 100 / 10, x % 100 % 10)

/-- R223: round half up on the magnitude, with the carry of D into W. -/
def roundTenths (w d r : Nat) : Nat × Nat :=
  if roundsUp r then
    if carries (d + 1) then (w + 1, 0) else (w, d + 1)
  else (w, d)

/-- W and D after step 2 (R221, R223). -/
def tenths (harg : BitVec 16) : Nat × Nat :=
  roundTenths (decompose (magnitude harg)).1 (decompose (magnitude harg)).2.1 (decompose (magnitude harg)).2.2

/-- R106, R226: the character code of one decimal digit. -/
def digitCode (d : Nat) : Byte := 0x30#8 + BitVec.ofNat 8 d

/-- R106: "-". -/
def minusCode : Byte := 0x2D#8

/-- R106: ".". -/
def pointCode : Byte := 0x2E#8

/-- R225: the decimal digits of W, most significant first, no leading zeros, at least one; three suffice (R229). -/
def wholeDigits (w : Nat) : List Nat :=
  if w < 10 then [w]
  else if w < 100 then [w / 10, w % 10]
  else [w / 100, w / 10 % 10, w % 10]

/-- R224: the sign prefix. -/
def signText (harg : BitVec 16) : List Byte := if negFlag harg then [minusCode] else []

/-- R224, R225: the characters before the terminator. -/
def centiText (harg : BitVec 16) : List Byte :=
  signText harg ++ (wholeDigits (tenths harg).1).map digitCode ++ [pointCode, digitCode (tenths harg).2]

/-- R220: one atomic step; needs ACTIVE = 0 only (R230, R256), writes STR and STRLEN and nothing else. -/
def execFmt (harg : BitVec 16) (s : State) : Out :=
  if s.active then .refused .busy else .next (s.writeString (centiText harg))

end Sys2Proof.Machine
end

