-- ==== Sys2Proof/Machine/Sequencer.lean ====
section
/-! DEFINITION. The ten micro-operations (40_sequencer_microops.md R131 to R140). -/

namespace Sys2Proof.Machine

/-- R131: `emit SetAddress(a); TR_ADDR <- a`. -/
def execSaddr (a : BitVec 7) (s : State) : Out := microStep (.setAddress a) (State.setAddr a) s

/-- R132: `emit SetByteCount(n); TR_NBYTES <- n`. -/
def execScnt (n : BitVec 8) (s : State) : Out := microStep (.setByteCount n) (State.setNbytes n) s

/-- R133: `emit SetReadMode; TR_MODE <- 1`. -/
def execSrd (s : State) : Out := microStep .setReadMode (State.setMode .read) s

/-- R134: `emit SetWriteMode; TR_MODE <- 0`. -/
def execSwr (s : State) : Out := microStep .setWriteMode (State.setMode .write) s

/-- R135: `emit Start; TR_OPEN <- 1; TR_XFER <- 0`. -/
def execStart (s : State) : Out := microStep .start State.openTransfer s

/-- R136: `emit Stop; TR_OPEN <- 0`. -/
def execStop (s : State) : Out := microStep .stop State.closeTransfer s

/-- R137: `emit WriteByte(b); TR_XFER <- TR_XFER + 1`. -/
def execWb (b : Byte) (s : State) : Out := sendByte b s

/-- R138: `b <- draw8(); emit ReadByte(b); RAW[i] <- b; TR_XFER <- TR_XFER + 1`. -/
def execRb (i : BitVec 3) (s : State) : Out :=
  match rawIndex i with
  | none => .refused .noSuchRawElement
  | some k => receiveByte k s

/-- R139: `emit Delay(n)`; how long it takes is timing (R297). -/
def execDly (n : BitVec 20) (s : State) : Out := microStep (.delay n) id s

/-- R140: the conversion if OP = 3, then `ACTIVE <- 0`; no primitive is issued. -/
def execEnd (s : State) : Out :=
  enabled (fun t => .next (if t.op = opGetth then (convert t).finish else t.finish)) s

end Sys2Proof.Machine
end

