-- ==== Sys2Proof/Machine/Wire.lean ====
section
/-! DEFINITION. The wire encodings (30_encoding.md R102 to R105). They are not operations of the block: a frame passes
over the bus only inside the micro-operations that carry it, and its meaning here is exactly their effect (DESIGN
CHOICE, log 14). -/

namespace Sys2Proof.Machine

/-- R102: the device address, "the argument of the only SADDR in the ROM": handed to the transport. -/
def execDevAddr (s : State) : Out := microStep (.setAddress Config.devAddr) (State.setAddr Config.devAddr) s

/-- R103: the CALINIT frame, "the block sends each frame whole", first byte first. -/
def execCalinit (s : State) : Out := sendBytes Config.cmdCalinit s

/-- R103: the TRIGGER frame. -/
def execTrigger (s : State) : Out := sendBytes Config.cmdTrigger s

/-- R104: the six bytes of a response frame, RAW[0] first. -/
def respBytes (status : Byte) (humidity temperature : BitVec 20) : List Byte :=
  [status,
   humidity.extractLsb' 12 8,
   humidity.extractLsb' 4 8,
   ((humidity.extractLsb' 0 4).setWidth 8 <<< 4) ||| (temperature.extractLsb' 16 4).setWidth 8,
   temperature.extractLsb' 8 8,
   temperature.extractLsb' 0 8]

/-- R104: the response frame: its six bytes received first to last into RAW[0] to RAW[5]. -/
def execResp (status : Byte) (humidity temperature : BitVec 20) (s : State) : Out :=
  receiveBytes [0, 1, 2, 3, 4, 5] (s.supply (respBytes status humidity temperature))

/-- R105, R168: the status byte, "Byte 0 carries the StatusByte": received into RAW[0], not interpreted. -/
def execStatus (b : Byte) (s : State) : Out := receiveByte 0 (s.supply [b])

end Sys2Proof.Machine
end

