-- ==== Sys2Proof/Machine/Dispatch.lean ====
section
/-! DEFINITION. The meaning of every instruction: one arm per row of spec/opcode_table.json. -/

namespace Sys2Proof.Machine

def exec (i : Instr) (s : State) : Host.Outcome State Fault Refusal :=
  match i with
  | .init b => Sys2Proof.Machine.execInit b s
  | .read => Sys2Proof.Machine.execRead s
  | .getth => Sys2Proof.Machine.execGetth s
  | .fmt v => Sys2Proof.Machine.execFmt v s
  | .saddr a => Sys2Proof.Machine.execSaddr a s
  | .scnt n => Sys2Proof.Machine.execScnt n s
  | .srd => Sys2Proof.Machine.execSrd s
  | .swr => Sys2Proof.Machine.execSwr s
  | .start => Sys2Proof.Machine.execStart s
  | .stop => Sys2Proof.Machine.execStop s
  | .wb b => Sys2Proof.Machine.execWb b s
  | .rb k => Sys2Proof.Machine.execRb k s
  | .dly n => Sys2Proof.Machine.execDly n s
  | .endOp => Sys2Proof.Machine.execEnd s
  | .devAddr => Sys2Proof.Machine.execDevAddr s
  | .calinit => Sys2Proof.Machine.execCalinit s
  | .trigger => Sys2Proof.Machine.execTrigger s
  | .resp st h t => Sys2Proof.Machine.execResp st h t s
  | .status b => Sys2Proof.Machine.execStatus b s

end Sys2Proof.Machine
end

