-- ==== Sys2Proof/Machine/Fetch.lean ====
section
/-! DEFINITION. Which word the next step runs, and how one is put there. -/

namespace Sys2Proof.Machine

/-- The next word and the state that is left to run it in: a wire frame presented whole (log 14); else, with
ACTIVE = 1, `MemRead(ROM, UPC, 1)` (R130), the host being blocked (R30); else the host's next word (R256, log 1);
none when the block is idle and nothing is presented. -/
def fetch (s : State) : Option (Encoded × State) :=
  match s.wire with
  | f :: rest => some (.wire f, { s with wire := rest })
  | [] =>
    if s.active then some (.u24 (romWord s), s)
    else
      match s.hostq with
      | w :: rest => some (.h24 w, { s with hostq := rest })
      | [] => none

/-- The state in which the next step fetches exactly `e`: a host word is presented to an idle block, a micro-operation
stands in the ROM at UPC of an active one, a wire frame is presented to an active one (log 2, 13, 14); no primitive is
outstanding. -/
def placeWord (e : Encoded) (s : State) : State :=
  match e with
  | .h24 w => { s with active := false, waiting := false, wire := [], hostq := w :: s.hostq }
  | .u24 w => { s with active := true, waiting := false, wire := [], rom := s.rom.set s.upc.toNat w s.upc.isLt }
  | .wire f => { s with active := true, waiting := false, wire := f :: s.wire }

end Sys2Proof.Machine
end

