-- ==== Sys2Proof/Machine/Step.lean ====
section
/-! DEFINITION. One step: fetch a word, decode it, run it. -/

namespace Sys2Proof.Machine

/-- One step. A block whose primitive never returns is stuck and fetches nothing (R130, R144, log 8). An idle block with
nothing presented stays as it is (R280, log 3). -/
def step (s : State) : Host.Outcome State Fault Refusal :=
  if s.waiting then .fault .stuck
  else
    match fetch s with
    | none => .next s
    | some (w, s1) =>
      match decode w with
      | .ok i => exec i s1
      | .error e => .refused (.reserved e)

/-- `s` with the instruction of an opcode-table row where the next step fetches it (log 2, 15). -/
def State.withFetchWord (s : State) (nbits w : Nat) : State :=
  match tableEncoded nbits w with
  | none => s
  | some e => placeWord e s

end Sys2Proof.Machine
end

