-- ==== Sys2Proof/Machine/HostPort.lean ====
section
/-! DEFINITION. What the host may read (60_exceptions.md R260) and when (10_state.md R21). A read has no side effect
(20_memory.md R70), so it is a function of the state. -/

namespace Sys2Proof.Machine

/-- The registers and wires of R260's read row. -/
inductive ResultReg where
  | raw (i : Fin 6)
  | hraw
  | traw
  | temp100
  | humid100
  | status
  | stBusy
  | stCal
  | str (i : Fin 7)
  | strlen
  deriving DecidableEq, Repr

/-- R21, R260: whether a host operation that writes the register has completed since reset. FMT is the one that writes STR:
what it leaves above the terminator is any value (U5), no register that nothing has written (log 9). -/
def holdsValue (r : ResultReg) (s : State) : Bool :=
  match r with
  | .raw i => s.rawWritten[i]
  | .hraw => s.convWritten
  | .traw => s.convWritten
  | .temp100 => s.convWritten
  | .humid100 => s.convWritten
  | .status => s.convWritten
  | .stBusy => s.convWritten
  | .stCal => s.convWritten
  | .str _ => s.strWritten
  | .strlen => s.strWritten

/-- The register's bits, zero-extended to 20, the widest register (log 24). -/
def resultBits (r : ResultReg) (s : State) : BitVec 20 :=
  match r with
  | .raw i => s.raw[i].setWidth 20
  | .hraw => s.hraw
  | .traw => s.traw
  | .temp100 => s.temp100.setWidth 20
  | .humid100 => s.humid100.setWidth 20
  | .status => s.status.setWidth 20
  | .stBusy => (BitVec.ofBool (stBusy s)).setWidth 20
  | .stCal => (BitVec.ofBool (stCal s)).setWidth 20
  | .str i => s.str[i].setWidth 20
  | .strlen => s.strlen.setWidth 20

/-- R260: a host read, "allowed when `ACTIVE = 0` and the register has been written". The spec itself refuses the others:
busy by R30 and R260; noValue by R21 ("a read before that is refused"), R251 ("host reads a register nothing has written |
refused"), U12 and D9. -/
def hostRead (r : ResultReg) (s : State) : Except Refusal (BitVec 20) :=
  if s.active then .error .busy
  else if holdsValue r s then .ok (resultBits r s)
  else .error .noValue

end Sys2Proof.Machine
end

