-- ==== Sys2Proof/Machine/Assembly.lean ====
section
/-! DEFINITION. The pseudo-operations, the two micro-programs written with them, and the assembler lines
(30_encoding.md R108, R109). -/

namespace Sys2Proof.Machine

/-- R109: the expansion of a pseudo-operation. -/
def expand : Pseudo → List Instr
  | .cfgw n => [.scnt n, .swr]
  | .cfgr n => [.scnt n, .srd]
  | .wr3 a b c => [.start, .wb a, .wb b, .wb c, .stop]
  | .rd6 => [.start, .rb 0, .rb 1, .rb 2, .rb 3, .rb 4, .rb 5, .stop]

/-- R109: INIT = `SADDR 0x38 ; CFGW 3 ; WR3 0xE1, 0x08, 0x00 ; DLY T_INIT_US ; END`. -/
def initProgram (d : Delays) : List Instr :=
  [.saddr Config.devAddr] ++ expand (.cfgw Config.cmdLen) ++ expand (.wr3 0xE1#8 0x08#8 0x00#8) ++
    [.dly d.tInit, .endOp]

/-- R109: READ = `CFGW 3 ; WR3 0xAC, 0x33, 0x00 ; DLY T_MEAS_US ; CFGR 6 ; RD6 ; SWR ; DLY T_POST_US ; END`. -/
def readProgram (d : Delays) : List Instr :=
  expand (.cfgw Config.cmdLen) ++ expand (.wr3 0xAC#8 0x33#8 0x00#8) ++ [.dly d.tMeas] ++
    expand (.cfgr Config.rawLen) ++ expand .rd6 ++ [.swr, .dly d.tPost, .endOp]

/-- R108: a "parameter name" operand. -/
inductive DelayName where
  | tInitUs
  | tMeasUs
  | tPostUs
  deriving DecidableEq, Repr

/-- R108: an operand of a micro-program line: a number, however it is spelled, or a parameter name. -/
inductive MicroOperand where
  | num (v : Int)
  | param (p : DelayName)
  deriving DecidableEq, Repr

/-- R108: an operand of a host program line: a number, or a register name meaning "the value that register holds when the
line is reached". -/
inductive HostOperand where
  | num (v : Int)
  | reg (r : ResultReg)
  deriving DecidableEq, Repr

/-- R11: the value a micro-program operand stands for. -/
def microOperandValue (d : Delays) : MicroOperand → Int
  | .num v => v
  | .param .tInitUs => d.tInit.toNat
  | .param .tMeasUs => d.tMeas.toNat
  | .param .tPostUs => d.tPost.toNat

/-- R99: an unsigned field of `w` bits, none where the number does not fit it. -/
def unsignedField (w : Nat) (v : Int) : Option (BitVec w) :=
  if 0 ≤ v ∧ v < 2 ^ w then some (BitVec.ofInt w v) else none

/-- R15, R108: the operand of FMT, a signed decimal of 16 bits, none where the number does not fit it. -/
def signedField (v : Int) : Option (BitVec 16) :=
  if -32768 ≤ v ∧ v ≤ 32767 then some (int16Pattern v) else none

/-- R98, R108, R109: the micro-operations of one line of a micro-program, its mnemonic and operands already apart
(log 27). -/
def assembleMicro (d : Delays) (mnemonic : String) (operands : List MicroOperand) : Option (List Instr) :=
  match mnemonic, operands.map (microOperandValue d) with
  | "SADDR", [a] => (unsignedField 7 a).map fun a => [.saddr a]
  | "SCNT", [n] => (unsignedField 8 n).map fun n => [.scnt n]
  | "SRD", [] => some [.srd]
  | "SWR", [] => some [.swr]
  | "START", [] => some [.start]
  | "STOP", [] => some [.stop]
  | "WB", [b] => (unsignedField 8 b).map fun b => [.wb b]
  | "RB", [i] => (unsignedField 3 i).bind fun i => if i.toNat ≤ 5 then some [.rb i] else none
  | "DLY", [n] => (unsignedField 20 n).map fun n => [.dly n]
  | "END", [] => some [.endOp]
  | "CFGW", [n] => (unsignedField 8 n).map fun n => expand (.cfgw n)
  | "CFGR", [n] => (unsignedField 8 n).map fun n => expand (.cfgr n)
  | "WR3", [a, b, c] =>
    match unsignedField 8 a, unsignedField 8 b, unsignedField 8 c with
    | some a, some b, some c => some (expand (.wr3 a b c))
    | _, _, _ => none
  | "RD6", [] => some (expand .rd6)
  | _, _ => none

/-- R108: the instruction of one line of a host program, reached in state `s`; a register that the host may not read then
(R21, R260), or one whose bits do not fit the 16 of `harg`, gives none. -/
def assembleHost (mnemonic : String) (operands : List HostOperand) (s : State) : Option Instr :=
  match mnemonic, operands with
  | "INIT", [.num v] => (unsignedField 16 v).map Instr.init
  | "READ", [] => some .read
  | "GETTH", [] => some .getth
  | "FMT", [.num v] => (signedField v).map Instr.fmt
  | "FMT", [.reg r] =>
    (hostRead r s).toOption.bind fun v => if v.toNat < 2 ^ 16 then some (.fmt (v.setWidth 16)) else none
  | _, _ => none

/-- R108: one line of a program, mnemonic and operand in decimal; the operand of FMT is signed. A wire frame has no
assembler line. -/
def assemblerLine : Instr → Option String
  | .init b => some ("INIT " ++ toString b.toNat)
  | .read => some "READ"
  | .getth => some "GETTH"
  | .fmt v => some ("FMT " ++ toString v.toInt)
  | .saddr a => some ("SADDR " ++ toString a.toNat)
  | .scnt n => some ("SCNT " ++ toString n.toNat)
  | .srd => some "SRD"
  | .swr => some "SWR"
  | .start => some "START"
  | .stop => some "STOP"
  | .wb b => some ("WB " ++ toString b.toNat)
  | .rb i => some ("RB " ++ toString i.toNat)
  | .dly n => some ("DLY " ++ toString n.toNat)
  | .endOp => some "END"
  | .devAddr => none
  | .calinit => none
  | .trigger => none
  | .resp _ _ _ => none
  | .status _ => none

end Sys2Proof.Machine
end

