-- ==== Sys2Proof/Safety.lean ====
section
/-! DEFINITION. What counts as a good state and a good run, in the terms the statements use: the families of
instructions, many steps, the events of the two micro-programs, the invariant of the ROM's programs, the monitor of the
bus, and when two states are alike in everything that may steer control. -/

namespace Sys2Proof

/-- The four host operations (R92). -/
def Instr.isHostOp : Instr → Bool
  | .init _ | .read | .getth | .fmt _ => true
  | .saddr _ | .scnt _ | .srd | .swr | .start | .stop | .wb _ | .rb _ | .dly _ | .endOp => false
  | .devAddr | .calinit | .trigger | .resp _ _ _ | .status _ => false

/-- The ten micro-operations (R98). -/
def Instr.isMicroOp : Instr → Bool
  | .init _ | .read | .getth | .fmt _ => false
  | .saddr _ | .scnt _ | .srd | .swr | .start | .stop | .wb _ | .rb _ | .dly _ | .endOp => true
  | .devAddr | .calinit | .trigger | .resp _ _ _ | .status _ => false

/-- The five wire encodings (R102 to R105). -/
def Instr.isWire (i : Instr) : Bool := !i.isHostOp && !i.isMicroOp

/-- The instructions that issue at least one collaborator primitive: all but the host operations and END. -/
def Instr.issues (i : Instr) : Bool := !i.isHostOp && decide (i ≠ .endOp)

end Sys2Proof

namespace Sys2Proof.Machine

/-- `n` steps one after the other; a stop ends them. -/
def steps : Nat → State → Out
  | 0, s => .next s
  | n + 1, s => andThen (step s) (steps n)

/-- The sequencer's step is enabled, the primitive before having returned (R130), and the primitive it issues returns
(R144: the named assumption "every issued primitive returns", for this one). -/
def Enabled (s : State) : Prop := s.active = true ∧ s.waiting = false ∧ s.hangIn ≠ some 0

/-- The state once the primitive of event `e` has been issued and has returned: the event stands at the end of EV (R16,
R46), and one primitive fewer is left before the one that hangs, if one does (log 8). -/
def afterEvent (e : Event) (s : State) : State :=
  { s with ev := s.ev ++ [e], hangIn := s.hangIn.map fun n => n - 1 }

/-- The block is idle, the host presents the word `w` next, every primitive returns (R144), and the ROM holds its fixed
contents with the delays `d` (R100). -/
structure Presented (d : Delays) (w : Word24) (rest : List Word24) (s : State) : Prop where
  idle : s.active = false
  wire : s.wire = []
  returned : s.waiting = false
  hostq : s.hostq = w :: rest
  returns : s.hangIn = none
  rom : s.rom = romOf d

/-- The event of the first primitive an instruction issues (R131 to R139), none for one that issues none. The wire frames are
taken as the micro-operations that carry them (log 14). -/
def firstEvent (i : Instr) (s : State) : Option Event :=
  match i with
  | .init _ | .read | .getth | .fmt _ | .endOp => none
  | .saddr a => some (.setAddress a)
  | .scnt n => some (.setByteCount n)
  | .srd => some .setReadMode
  | .swr => some .setWriteMode
  | .start => some .start
  | .stop => some .stop
  | .wb b => some (.writeByte b)
  | .rb _ => some (.readByte (drawnByte s))
  | .dly n => some (.delay n)
  | .devAddr => some (.setAddress 0x38#7)
  | .calinit => some (.writeByte 0xE1#8)
  | .trigger => some (.writeByte 0xAC#8)
  | .resp st _ _ => some (.readByte st)
  | .status b => some (.readByte b)

/-- How many of `n` primitives in a row are issued: all of them if they return, else those up to and including the one
that never does (R144). -/
def issued (n : Nat) (s : State) : Nat :=
  match s.hangIn with
  | none => n
  | some m => min n (m + 1)

/-- R161: the nine events of the INIT micro-program. -/
def initEvents (d : Delays) : List Event :=
  [.setAddress 0x38#7, .setByteCount 3#8, .setWriteMode, .start,
   .writeByte 0xE1#8, .writeByte 0x08#8, .writeByte 0x00#8, .stop, .delay d.tInit]

/-- R166: the twenty events of the READ micro-program, with the six bytes read. -/
def readEvents (d : Delays) (b : Vector Byte 6) : List Event :=
  [.setByteCount 3#8, .setWriteMode, .start,
   .writeByte 0xAC#8, .writeByte 0x33#8, .writeByte 0x00#8, .stop,
   .delay d.tMeas,
   .setByteCount 6#8, .setReadMode, .start,
   .readByte b[0], .readByte b[1], .readByte b[2], .readByte b[3], .readByte b[4], .readByte b[5], .stop,
   .setWriteMode,
   .delay d.tPost]

/-- The k-th byte the environment will return from `s` on: the k-th listed one, else the free value. -/
def nthDraw (s : State) (k : Nat) : Byte := (s.env[k]?).getD (Config.drawnByte (s.draws + k))

/-- The next six draws. -/
def sixDraws (s : State) : Vector Byte 6 := Vector.ofFn fun i : Fin 6 => nthDraw s i.val

/-- The sum of the delays in a history, in microseconds (R174). -/
def totalDelay : List Event → Nat
  | [] => 0
  | .delay n :: es => n.toNat + totalDelay es
  | .setAddress _ :: es => totalDelay es
  | .setByteCount _ :: es => totalDelay es
  | .setReadMode :: es => totalDelay es
  | .setWriteMode :: es => totalDelay es
  | .start :: es => totalDelay es
  | .stop :: es => totalDelay es
  | .writeByte _ :: es => totalDelay es
  | .readByte _ :: es => totalDelay es

/-! ### The invariant of the two micro-programs -/

/-- R62, R101: UPC lies in the micro-program OP names: 0 to 9 for INIT, 10 to 30 for READ and GETTH. -/
def InProgram (op : BitVec 2) (upc : BitVec 5) : Prop :=
  (op = opInit ∧ upc.toNat ≤ 9) ∨ ((op = opRead ∨ op = opGetth) ∧ 10 ≤ upc.toNat ∧ upc.toNat ≤ 30)

/-- Whether a transaction is open before the micro-operation at ROM index `u` (R100, R135, R136). -/
def inTransfer (u : Nat) : Bool :=
  decide (4 ≤ u ∧ u ≤ 7) || decide (13 ≤ u ∧ u ≤ 16) || decide (21 ≤ u ∧ u ≤ 27)

/-- Bytes moved in the open transaction before ROM index `u`. -/
def movedAt (u : Nat) : Nat := if u ≤ 7 then u - 4 else if u ≤ 16 then u - 13 else u - 21

/-- TR_MODE before ROM index `u` of READ: read from after word 19 to word 28 (R133, R134). -/
def modeAt (u : Nat) : Direction := if 20 ≤ u ∧ u ≤ 28 then .read else .write

/-- R161: the transport configuration inside INIT before ROM index `u`; before START nothing is known of TR_OPEN. -/
structure InitTransport (u : Nat) (t : Transport) : Prop where
  addr : 1 ≤ u → t.addr = 0x38#7
  nbytes : 2 ≤ u → t.nbytes = 3#8
  mode : 3 ≤ u → t.mode = .write
  isOpen : 4 ≤ u → t.isOpen = inTransfer u
  xfer : inTransfer u = true → t.xfer.toNat = movedAt u

/-- R166: the transport configuration inside READ and GETTH before ROM index `u`. -/
structure ReadTransport (u : Nat) (t : Transport) : Prop where
  addr : t.addr = 0x38#7
  nbytes : 11 ≤ u → t.nbytes = if u ≤ 18 then 3#8 else 6#8
  mode : t.mode = modeAt u
  isOpen : t.isOpen = inTransfer u
  xfer : inTransfer u = true → t.xfer.toNat = movedAt u

/-- R41, R289: the transport configuration between host operations, once INIT has completed. -/
structure IdleTransport (t : Transport) : Prop where
  addr : t.addr = 0x38#7
  nbytes : t.nbytes = 3#8 ∨ t.nbytes = 6#8
  mode : t.mode = .write
  isOpen : t.isOpen = false

/-- What every step keeps, for the delay parameters `d`: the ROM's contents, no frame presented whole, where UPC and
the transport configuration may stand, which registers hold values, and what those values are. -/
structure Inv (d : Delays) (s : State) : Prop where
  /-- R75, R100. -/
  rom : s.rom = romOf d
  /-- No step presents a wire frame whole (log 14). -/
  wire : s.wire = []
  /-- R30, R43: a primitive is outstanding only while an operation runs. -/
  waiting : s.waiting = true → s.active = true
  /-- R256: nothing runs before INIT has been accepted. -/
  bound : s.active = true → s.bound = true
  /-- R29, R62. -/
  program : s.active = true → InProgram s.op s.upc
  /-- R161. -/
  initTransport : s.active = true → s.op = opInit → InitTransport s.upc.toNat s.tr
  /-- R166. -/
  readTransport : s.active = true → s.op ≠ opInit → ReadTransport s.upc.toNat s.tr
  /-- R41. -/
  idleTransport : s.active = false → s.bound = true → IdleTransport s.tr
  /-- R138, R166: the elements of RAW the READ micro-program has filled so far hold values. -/
  rawFilled : s.active = true → s.op ≠ opInit → ∀ i : Fin 6, 21 + i.val < s.upc.toNat → s.rawWritten[i] = true
  /-- R191: with the conversion results every element of RAW holds a value. -/
  convRaw : s.convWritten = true → ∀ i : Fin 6, s.rawWritten[i] = true
  /-- R191: the scaled results belong to the raw fields. -/
  results : s.convWritten = true → s.temp100 = scaleT s.traw ∧ s.humid100 = scaleH s.hraw
  /-- R226, R27: STRLEN is 3 to 6 and the terminator stands at STR[STRLEN]. -/
  string : s.strWritten = true →
    3 ≤ s.strlen.toNat ∧ s.strlen.toNat ≤ 6 ∧ s.str[s.strlen.toNat]? = some 0x00#8

/-! ### The bus monitor (R145) -/

/-- What an observer of the event history knows of the bus: the last byte count and direction set, and the number of
bytes moved in the open transaction, none when no transaction is open. -/
structure Monitor where
  count : Option Nat
  mode : Option Direction
  moved : Option Nat
  deriving DecidableEq, Repr

/-- The monitor before any event. -/
def Monitor.fresh : Monitor := { count := none, mode := none, moved := none }

/-- One byte moved in direction `m`: only in an open transaction of that direction that is not complete. -/
def Monitor.transfer (m : Direction) (o : Monitor) : Option Monitor :=
  match o.moved, o.count with
  | some k, some c => if o.mode = some m ∧ k < c then some { o with moved := some (k + 1) } else none
  | _, _ => none

/-- R145: `Start`, then exactly TR_NBYTES transfers all of the direction TR_MODE, then `Stop`; configuration and delays
only while no transaction is open. None: the event breaks this. -/
def Monitor.observe (o : Monitor) (e : Event) : Option Monitor :=
  match e with
  | .setAddress _ => if o.moved = none then some o else none
  | .setByteCount n => if o.moved = none then some { o with count := some n.toNat } else none
  | .setReadMode => if o.moved = none then some { o with mode := some .read } else none
  | .setWriteMode => if o.moved = none then some { o with mode := some .write } else none
  | .start => if o.moved = none ∧ o.count ≠ none ∧ o.mode ≠ none then some { o with moved := some 0 } else none
  | .stop => if o.moved ≠ none ∧ o.moved = o.count then some { o with moved := none } else none
  | .writeByte _ => o.transfer .write
  | .readByte _ => o.transfer .read
  | .delay _ => if o.moved = none then some o else none

/-- The monitor after a whole history. -/
def Monitor.run (o : Monitor) : List Event → Option Monitor
  | [] => some o
  | e :: es =>
    match o.observe e with
    | none => none
    | some o1 => o1.run es

/-- The monitor has accepted the whole history and, while no primitive is outstanding, knows what the block's program has
configured: nothing open outside the transfers of the ROM; count and direction as in TR_NBYTES and TR_MODE once INIT has
set them. -/
def BusInv (s : State) : Prop :=
  ∃ o, Monitor.fresh.run s.ev = some o ∧
    (s.waiting = false →
      o.moved = (if s.active = true ∧ inTransfer s.upc.toNat = true then some s.tr.xfer.toNat else none) ∧
      (s.bound = true → (s.active = true → 2 ≤ s.upc.toNat) → o.count = some s.tr.nbytes.toNat) ∧
      (s.bound = true → (s.active = true → 3 ≤ s.upc.toNat) → o.mode = some s.tr.mode))

/-! ### Control and data (R168) -/

/-- An event without the byte that was read. -/
def eraseRead : Event → Event
  | .readByte _ => .readByte 0#8
  | .setAddress a => .setAddress a
  | .setByteCount n => .setByteCount n
  | .setReadMode => .setReadMode
  | .setWriteMode => .setWriteMode
  | .start => .start
  | .stop => .stop
  | .writeByte b => .writeByte b
  | .delay n => .delay n

/-- Two states alike in everything but data: the bytes read (past, in RAW and in EV, and future), the conversion
results, the string, BUSSPEED. -/
structure SameControl (s s' : State) : Prop where
  upc : s.upc = s'.upc
  active : s.active = s'.active
  op : s.op = s'.op
  bound : s.bound = s'.bound
  rom : s.rom = s'.rom
  tr : s.tr = s'.tr
  ev : s.ev.map eraseRead = s'.ev.map eraseRead
  waiting : s.waiting = s'.waiting
  hostq : s.hostq = s'.hostq
  wire : s.wire = s'.wire
  hangIn : s.hangIn = s'.hangIn

/-- Two outcomes of the same kind, with the same reason or with next states alike in control. -/
def SameOutcome (o o' : Out) : Prop :=
  match o, o' with
  | .next t, .next t' => SameControl t t'
  | .fault r, .fault r' => r = r'
  | .refused r, .refused r' => r = r'
  | _, _ => False

/-! ### Reading the formatted string back (R227) -/

/-- The characters STR[0] to STR[STRLEN - 1]. -/
def stringText (s : State) : List Byte := s.str.toList.take s.strlen.toNat

/-- The number the decimal digits among the characters spell, the point being skipped. -/
def digitsValue (cs : List Byte) : Nat :=
  cs.foldl (fun n c => if c = pointCode then n else 10 * n + (c.toNat - 0x30)) 0

/-- A text with one decimal, read back in tenths, its sign apart: true for "-". -/
def readTenths (cs : List Byte) : Bool × Nat :=
  match cs with
  | [] => (false, 0)
  | c :: rest => if c = minusCode then (true, digitsValue rest) else (false, digitsValue (c :: rest))

/-- Whether a character is a decimal digit (R106). -/
def isDigit (c : Byte) : Bool := decide (0x30 ≤ c.toNat) && decide (c.toNat ≤ 0x39)

end Sys2Proof.Machine
end

