-- ==== Sys2Proof/Certificates/Slice0/Obligations.lean ====
section
/-! DEFINITION. The statements for the provers, one per entry of OBLIGATIONS.json. -/

open Sys2Proof Sys2Proof.Machine

/-! ### Encodings -/

/-- R91 to R105: decoding the encoded word of a well-formed instruction gives it back, on its own interface. -/
def Obligations.DecodeOfEncodeIsTheInstruction : Prop :=
  ∀ i : Instr, i.wellFormed = true → decode (encode i) = .ok i

/-- R97 to R99, R104, R105: every bit of a micro-operation word and of a wire frame is read: a word that decodes is the
word of what it decodes to. -/
def Obligations.EncodeOfDecodedMicroOrWireWordIsTheWord : Prop :=
  (∀ (w : Word24) (i : Instr), decode (.u24 w) = .ok i → encode i = .u24 w) ∧
    ∀ (f : WireFrame) (i : Instr), decode (.wire f) = .ok i → encode i = .wire f

/-- R99: what decodes is well-formed. -/
def Obligations.DecodedInstructionsAreWellFormed : Prop :=
  ∀ (e : Encoded) (i : Instr), decode e = .ok i → i.wellFormed = true

/-- R94: every argument selects the same operation, and presenting it makes the same step whatever the argument was. -/
def Obligations.ReadAndGetthIgnoreTheirArgument : Prop :=
  ∀ harg harg' : BitVec 16,
    decode (.h24 (hostWord 0x02#8 harg)) = .ok .read ∧ decode (.h24 (hostWord 0x03#8 harg)) = .ok .getth ∧
    ∀ (s : State) (rest : List Word24), s.active = false → s.wire = [] →
      step { s with hostq := hostWord 0x02#8 harg :: rest } = step { s with hostq := hostWord 0x02#8 harg' :: rest } ∧
      step { s with hostq := hostWord 0x03#8 harg :: rest } = step { s with hostq := hostWord 0x03#8 harg' :: rest }

/-- R93: all arguments of INIT are accepted, copied to BUSSPEED, and make no other difference. -/
def Obligations.InitArgumentGoesToBusSpeedOnly : Prop :=
  ∀ b b' : BitVec 16,
    decode (.h24 (hostWord 0x01#8 b)) = .ok (.init b) ∧
      ∀ s t : State, exec (.init b) s = .next t →
        t.busSpeed = b ∧ exec (.init b') s = .next { t with busSpeed := b' }

/-- R95: FMT's argument decodes to itself and stands for its two's-complement value. -/
def Obligations.FmtArgumentIsTwosComplement : Prop :=
  ∀ harg : BitVec 16,
    decode (.h24 (hostWord 0x04#8 harg)) = .ok (.fmt harg) ∧ value100 harg = harg.toInt

/-- R96: a word with a reserved `hop` selects no operation: presented to an idle block, it is refused. -/
def Obligations.ReservedHostOpcodesAreRefused : Prop :=
  ∀ w : Word24,
    (hopField w = 0x00#8 ∨ 0x05 ≤ (hopField w).toNat) →
      decode (.h24 w) = .error .reservedHostOpcode ∧
        ∀ (s : State) (rest : List Word24),
          s.active = false → s.waiting = false → s.wire = [] → s.hostq = w :: rest →
            step s = .refused (.reserved .reservedHostOpcode)

/-- R98, R99, R101: a micro-operation word decodes exactly when its kind is listed, its must-be-zero bits are zero and
an RB index is at most 5; any other word is refused by the step. -/
def Obligations.MicroWordsDecodeExactlyAsTheTableSays : Prop :=
  ∀ w : Word24,
    ((∃ i : Instr, decode (.u24 w) = .ok i) ↔
      (w.extractLsb' 7 17 = 0x02000#17 ∨ w.extractLsb' 8 16 = 0x2000#16 ∨ w = 0x300000#24 ∨ w = 0x400000#24 ∨
        w = 0x500000#24 ∨ w = 0x600000#24 ∨ w.extractLsb' 8 16 = 0x7000#16 ∨
        (w.extractLsb' 3 21 = 0x100000#21 ∧ (w.extractLsb' 0 3).toNat ≤ 5) ∨
        w.extractLsb' 20 4 = 0x9#4 ∨ w = 0xA00000#24)) ∧
    ∀ s : State, s.active = true → s.waiting = false → s.wire = [] → romWord s = w →
      (∀ i : Instr, decode (.u24 w) ≠ .ok i) → ∃ e : DecodeError, step s = .refused (.reserved e)

/-- Words written out from the tables of R92, R98, R102 to R105 decode to the instructions they stand for, and RB 6
decodes to none. That the interface of a word is read from its width and bits is the model's choice (log 15). -/
def Obligations.SampleWordsDecode : Prop :=
  decodeTableWord 24 0x010007 = some (.init 7#16) ∧ decodeTableWord 24 0x02ABCD = some .read ∧
  decodeTableWord 24 0x030000 = some .getth ∧ decodeTableWord 24 0x04FF15 = some (.fmt 0xFF15#16) ∧
  decodeTableWord 24 0x100038 = some (.saddr 0x38#7) ∧ decodeTableWord 24 0x7000E1 = some (.wb 0xE1#8) ∧
  decodeTableWord 24 0x800005 = some (.rb 5#3) ∧ decodeTableWord 24 0x800006 = none ∧
  decodeTableWord 24 0x9124F8 = some (.dly 75000#20) ∧ decodeTableWord 24 0xA00000 = some .endOp ∧
  decodeTableWord 24 0xE10800 = some .calinit ∧ decodeTableWord 24 0xAC3300 = some .trigger ∧
  decodeTableWord 48 0x1919999A6666 = some (.resp 0x19#8 0x19999#20 0xA6666#20) ∧
  decodeTableWord 7 0x38 = some .devAddr ∧ decodeTableWord 8 0x99 = some (.status 0x99#8)

/-- R100, R109: for every choice of the delays the ROM is the two micro-programs, assembled, and its word 31 is
reserved. -/
def Obligations.RomIsTheAssembledMicroPrograms : Prop :=
  ∀ d : Delays,
    (initProgram d ++ readProgram d).map encode = ((romOf d).toList.take 31).map Encoded.u24 ∧
      (romOf d)[31] = 0x000000#24 ∧ ∀ i : Instr, decode (.u24 (romOf d)[31]) ≠ .ok i

/-! ### The step -/

/-- R107, R130, R256: where no primitive is outstanding, the step runs the instruction that the fetched word decodes to, on
the state less that word: a host word presented to an idle block, the ROM word at UPC of an active one, a wire frame
presented whole. The list of presented words (log 1) and the last clause (log 14) are the model's choice. -/
def Obligations.StepRunsTheDecodedInstruction : Prop :=
  (∀ (s : State) (w : Word24) (rest : List Word24) (i : Instr),
    s.waiting = false → s.wire = [] → s.active = false → s.hostq = w :: rest → decode (.h24 w) = .ok i →
      step s = exec i { s with hostq := rest }) ∧
  (∀ (s : State) (i : Instr),
    s.waiting = false → s.wire = [] → s.active = true →
      memRead .rom s.upc.toNat s = some (romWord s) ∧
        (decode (.u24 (romWord s)) = .ok i → step s = exec i s)) ∧
  ∀ (s : State) (f : WireFrame) (rest : List WireFrame) (i : Instr),
    s.waiting = false → s.wire = f :: rest → decode (.wire f) = .ok i → step s = exec i { s with wire := rest }

/-- The model's choice (log 3) for R280's "the sequencer is idle until the host issues INIT": with nothing presented
an idle block stays as it is. -/
def Obligations.IdleBlockStaysAsItIs : Prop :=
  ∀ s : State, s.waiting = false → s.wire = [] → s.active = false → s.hostq = [] → step s = .next s

/-- R29, R41: UPC advances by one below 31 and at 31 wraps or saturates; TR_XFER counts by one below 255. -/
def Obligations.CountersAdvanceByOne : Prop :=
  (∀ u : BitVec 5, u.toNat < 31 → (nextUpc u).toNat = u.toNat + 1) ∧
  (nextUpc 31#5 = 0#5 ∨ nextUpc 31#5 = 31#5) ∧
  ∀ x : BitVec 8, x.toNat < 255 → (nextXfer x).toNat = x.toNat + 1

/-! ### Acceptance of host operations -/

/-- R160: what accepting INIT writes, and that nothing else changes. -/
def Obligations.InitIsAccepted : Prop :=
  ∀ (s : State) (b : BitVec 16), s.active = false → s.bound = false →
    exec (.init b) s =
      .next { s with busSpeed := b, bound := true, op := 1#2, upc := 0#5, active := true }

/-- R165, R190: what accepting READ and GETTH writes, and that nothing else changes. -/
def Obligations.ReadAndGetthAreAccepted : Prop :=
  ∀ s : State, s.active = false → s.bound = true →
    exec .read s = .next { s with op := 2#2, upc := 10#5, active := true } ∧
    exec .getth s = .next { s with op := 3#2, upc := 10#5, active := true }

/-- R256: each host operation is accepted exactly in the states of the table's "accepted when" column and refused in
all others; a reserved `hop` never. -/
def Obligations.HostOperationsAreAcceptedByTheTable : Prop :=
  (∀ (s : State) (b : BitVec 16),
    ((∃ t, exec (.init b) s = .next t) ↔ s.active = false ∧ s.bound = false) ∧
    (¬(s.active = false ∧ s.bound = false) → ∃ r, exec (.init b) s = .refused r)) ∧
  (∀ s : State,
    ((∃ t, exec .read s = .next t) ↔ s.active = false ∧ s.bound = true) ∧
    (¬(s.active = false ∧ s.bound = true) → ∃ r, exec .read s = .refused r)) ∧
  (∀ s : State,
    ((∃ t, exec .getth s = .next t) ↔ s.active = false ∧ s.bound = true) ∧
    (¬(s.active = false ∧ s.bound = true) → ∃ r, exec .getth s = .refused r)) ∧
  (∀ (s : State) (v : BitVec 16),
    ((∃ t, exec (.fmt v) s = .next t) ↔ s.active = false) ∧
    (s.active = true → ∃ r, exec (.fmt v) s = .refused r)) ∧
  ∀ w : Word24, (hopField w).toNat = 0 ∨ 5 ≤ (hopField w).toNat → ∀ i : Instr, decode (.h24 w) ≠ .ok i

/-! ### Micro-operations -/

/-- R131 to R134: the four configuration micro-operations. -/
def Obligations.ConfigurationMicroOpsWriteTheTransport : Prop :=
  ∀ (s : State) (a : BitVec 7) (n : BitVec 8), Enabled s →
    exec (.saddr a) s =
      .next { afterEvent (.setAddress a) s with tr := { s.tr with addr := a }, upc := nextUpc s.upc } ∧
    exec (.scnt n) s =
      .next { afterEvent (.setByteCount n) s with tr := { s.tr with nbytes := n }, upc := nextUpc s.upc } ∧
    exec .srd s =
      .next { afterEvent .setReadMode s with tr := { s.tr with mode := .read }, upc := nextUpc s.upc } ∧
    exec .swr s =
      .next { afterEvent .setWriteMode s with tr := { s.tr with mode := .write }, upc := nextUpc s.upc }

/-- R135, R136: START and STOP. -/
def Obligations.StartAndStopOpenAndClose : Prop :=
  ∀ s : State, Enabled s →
    exec .start s =
      .next { afterEvent .start s with tr := { s.tr with isOpen := true, xfer := 0#8 }, upc := nextUpc s.upc } ∧
    exec .stop s =
      .next { afterEvent .stop s with tr := { s.tr with isOpen := false }, upc := nextUpc s.upc }

/-- R137, R139: WB sends its byte and counts it; DLY only waits. -/
def Obligations.WriteByteAndDelayResults : Prop :=
  ∀ (s : State) (b : Byte) (n : BitVec 20), Enabled s →
    exec (.wb b) s =
      .next { afterEvent (.writeByte b) s with
        tr := { s.tr with xfer := nextXfer s.tr.xfer }, upc := nextUpc s.upc } ∧
    exec (.dly n) s = .next { afterEvent (.delay n) s with upc := nextUpc s.upc }

/-- R138: RB stores the drawn byte whole in RAW[i], which holds a value from then on, counts the transfer, consumes the
byte, and changes nothing else; an index above 5 names no element and is refused (R60, R99). -/
def Obligations.ReadByteStoresTheDrawnByte : Prop :=
  (∀ (s : State) (i : BitVec 3) (h : i.toNat < 6), Enabled s →
    exec (.rb i) s =
      .next { afterEvent (.readByte (nthDraw s 0)) s with
        raw := s.raw.set i.toNat (nthDraw s 0) h
        rawWritten := s.rawWritten.set i.toNat true h
        tr := { s.tr with xfer := nextXfer s.tr.xfer }
        env := s.env.tail
        draws := s.draws + 1
        upc := nextUpc s.upc }) ∧
  ∀ (s : State) (i : BitVec 3), 6 ≤ i.toNat → exec (.rb i) s = .refused .noSuchRawElement

/-- R140, R191: END performs the conversion if OP = 3, clears ACTIVE, and changes nothing else; EV and UPC stay. -/
def Obligations.EndConvertsForGetthAndClearsActive : Prop :=
  ∀ s : State, s.active = true → s.waiting = false →
    (s.op = 3#2 →
      exec .endOp s =
        .next { s with
          hraw := unpackH s.raw[1] s.raw[2] s.raw[3]
          traw := unpackT s.raw[3] s.raw[4] s.raw[5]
          temp100 := scaleT (unpackT s.raw[3] s.raw[4] s.raw[5])
          humid100 := scaleH (unpackH s.raw[1] s.raw[2] s.raw[3])
          status := s.raw[0]
          convWritten := true
          active := false }) ∧
    (s.op ≠ 3#2 → exec .endOp s = .next { s with active := false })

/-- R130: with ACTIVE = 0 the sequencer has no step: every micro-operation, and every wire frame (log 14, 16), is
refused. -/
def Obligations.MicroOpsHaveNoStepWhenIdle : Prop :=
  ∀ (i : Instr) (s : State), i.isHostOp = false → i.wellFormed = true → s.active = false →
    exec i s = .refused .sequencerIdle

/-! ### Wire frames (the model's reading, log 14) -/

/-- R102, R103, R105: the device address is handed to the transport; a command frame is sent whole, first byte first; a
status byte is received into RAW[0]. -/
def Obligations.AddressCommandAndStatusFramesTransfer : Prop :=
  ∀ (s : State) (b : Byte), s.active = true → s.waiting = false → s.hangIn = none →
    exec .devAddr s =
      .next { s with
        ev := s.ev ++ [.setAddress 0x38#7], tr := { s.tr with addr := 0x38#7 }, upc := nextUpc s.upc } ∧
    exec .calinit s =
      .next { s with
        ev := s.ev ++ [.writeByte 0xE1#8, .writeByte 0x08#8, .writeByte 0x00#8]
        tr := { s.tr with xfer := nextXfer (nextXfer (nextXfer s.tr.xfer)) }
        upc := nextUpc (nextUpc (nextUpc s.upc)) } ∧
    exec .trigger s =
      .next { s with
        ev := s.ev ++ [.writeByte 0xAC#8, .writeByte 0x33#8, .writeByte 0x00#8]
        tr := { s.tr with xfer := nextXfer (nextXfer (nextXfer s.tr.xfer)) }
        upc := nextUpc (nextUpc (nextUpc s.upc)) } ∧
    exec (.status b) s =
      .next { s with
        ev := s.ev ++ [.readByte b]
        raw := s.raw.set 0 b
        rawWritten := s.rawWritten.set 0 true
        tr := { s.tr with xfer := nextXfer s.tr.xfer }
        draws := s.draws + 1
        upc := nextUpc s.upc }

/-- R104: a response frame is received whole: RAW holds its six bytes, of which the unpacker gives back the frame's two
fields and RAW[0] its status; EV gets the six reads in order; registers other than RAW stay. -/
def Obligations.ResponseFrameFillsRaw : Prop :=
  ∀ (s : State) (st : Byte) (h t : BitVec 20), s.active = true → s.waiting = false → s.hangIn = none →
    ∃ u : State, exec (.resp st h t) s = .next u ∧
      u.raw[0] = st ∧ hrawOf u.raw = h ∧ trawOf u.raw = t ∧
      (∀ i : Fin 6, u.rawWritten[i] = true) ∧
      u.ev = s.ev ++ u.raw.toList.map Event.readByte ∧
      u = { s with
        raw := u.raw, rawWritten := u.rawWritten, ev := u.ev, tr := { s.tr with xfer := u.tr.xfer }
        draws := s.draws + 6, upc := u.upc } ∧
      (s.tr.xfer.toNat ≤ 249 → u.tr.xfer.toNat = s.tr.xfer.toNat + 6) ∧
      (s.upc.toNat ≤ 25 → u.upc.toNat = s.upc.toNat + 6)

/-- R100, R102 to R105: each wire frame, as the model reads it (log 14), is exactly the ROM words that carry it: word 0,
words 4 to 6, words 13 to 15, words 21 to 26 with the frame as the bytes the transport returns, and word 21 for the status
byte; where a primitive never returns, the words up to and including the one that issues it. -/
def Obligations.WireFramesAreTheirRomWords : Prop :=
  ∀ (d : Delays) (s : State), s.rom = romOf d → s.wire = [] → s.active = true →
    (s.upc = 0#5 → exec .devAddr s = steps 1 s) ∧
    (s.upc = 4#5 → exec .calinit s = steps (issued 3 s) s) ∧
    (s.upc = 13#5 → exec .trigger s = steps (issued 3 s) s) ∧
    (s.upc = 21#5 → ∀ (st : Byte) (h t : BitVec 20),
      exec (.resp st h t) s = steps (issued 6 s) { s with env := respBytes st h t ++ s.env }) ∧
    (s.upc = 21#5 → ∀ b : Byte, exec (.status b) s = steps 1 { s with env := b :: s.env })

/-! ### Collaborators -/

/-- R144, R250: the block faults in no other way than by waiting for a collaborator that never returns, and comes to wait
only by a running operation whose environment has such a collaborator; never where every primitive returns. -/
def Obligations.OnlyACollaboratorCanStopTheBlock : Prop :=
  ∀ s : State,
    (∀ f : Fault, step s = .fault f → f = .stuck ∧ s.waiting = true) ∧
    ∀ t : State, step s = .next t →
      s.waiting = false ∧ (t.waiting = true → s.active = true ∧ s.hangIn ≠ none)

/-- R16, R46, R144: where the first primitive of an instruction never returns, its event is appended and nothing else that
the instruction would write is written: UPC, RAW and the transport configuration stay; the block waits, and no number of
steps takes it further. Two clauses are the model's choice: that a wire frame is an instruction with a first primitive
(log 14), and that the event of a read that never returns carries the drawn byte (log 8). Of the bytes still to come
(State.env, State.draws) nothing is said. -/
def Obligations.ANeverReturningPrimitiveIsStuck : Prop :=
  ∀ (i : Instr) (s : State) (e : Event), firstEvent i s = some e → i.wellFormed = true → s.active = true →
    s.waiting = false → s.hangIn = some 0 →
      ∃ t : State, exec i s = .next t ∧
        t = { s with ev := s.ev ++ [e], waiting := true, env := t.env, draws := t.draws } ∧
        ∀ n : Nat, steps (n + 1) t = .fault .stuck

/-- R30, R130, R144: in a block that waits for a primitive that never returns, the step, every micro-operation and every
wire frame (log 14) are stuck, and the host stays blocked: its operations and reads are refused. -/
def Obligations.AWaitingBlockRunsNothing : Prop :=
  ∀ s : State, s.active = true → s.waiting = true →
    step s = .fault .stuck ∧
    (∀ i : Instr, i.isHostOp = false → i.wellFormed = true → exec i s = .fault .stuck) ∧
    (∀ i : Instr, i.isHostOp = true → exec i s = .refused .busy) ∧
    ∀ r : ResultReg, hostRead r s = .error .busy

/-! ### Whole operations -/

/-- R160, R161: an accepted INIT, run to its END: eleven steps, the nine events, the transport configuration, and no
other change. -/
def Obligations.InitRunsToItsEnd : Prop :=
  ∀ (d : Delays) (s : State) (b : BitVec 16) (rest : List Word24),
    Presented d (hostWord 0x01#8 b) rest s → s.bound = false →
      steps 11 s =
        .next { s with
          hostq := rest
          busSpeed := b
          bound := true
          op := 1#2
          upc := 9#5
          ev := s.ev ++ initEvents d
          tr := { addr := 0x38#7, nbytes := 3#8, mode := .write, isOpen := false, xfer := 3#8 } }

/-- R165, R166, R169: an accepted READ, run to its END: 22 steps, the twenty events, RAW filled with the six draws, the
transport configuration, and no other change: the conversion registers, the string, BOUND and BUSSPEED stay. -/
def Obligations.ReadRunsToItsEnd : Prop :=
  ∀ (d : Delays) (s : State) (harg : BitVec 16) (rest : List Word24),
    Presented d (hostWord 0x02#8 harg) rest s → s.bound = true →
      steps 22 s =
        .next { s with
          hostq := rest
          op := 2#2
          upc := 30#5
          ev := s.ev ++ readEvents d (sixDraws s)
          raw := sixDraws s
          rawWritten := Vector.replicate 6 true
          env := s.env.drop 6
          draws := s.draws + 6
          tr := { addr := s.tr.addr, nbytes := 6#8, mode := .write, isOpen := false, xfer := 6#8 } }

/-- R190, R191, R203: an accepted GETTH, run to its END: as READ, and the five results are those of the six bytes it
has itself read; the string stays. -/
def Obligations.GetthRunsToItsEnd : Prop :=
  ∀ (d : Delays) (s : State) (harg : BitVec 16) (rest : List Word24),
    Presented d (hostWord 0x03#8 harg) rest s → s.bound = true →
      steps 22 s =
        .next { s with
          hostq := rest
          op := 3#2
          upc := 30#5
          ev := s.ev ++ readEvents d (sixDraws s)
          raw := sixDraws s
          rawWritten := Vector.replicate 6 true
          env := s.env.drop 6
          draws := s.draws + 6
          tr := { addr := s.tr.addr, nbytes := 6#8, mode := .write, isOpen := false, xfer := 6#8 }
          hraw := hrawOf (sixDraws s)
          traw := trawOf (sixDraws s)
          temp100 := scaleT (trawOf (sixDraws s))
          humid100 := scaleH (hrawOf (sixDraws s))
          status := nthDraw s 0
          convWritten := true }

/-- R171, R144: from any point of a micro-program it ends, after exactly the steps that are left, if every primitive
returns; until then ACTIVE stays 1. -/
def Obligations.EveryMicroProgramTerminates : Prop :=
  ∀ (d : Delays) (s : State), Inv d s → s.active = true → s.waiting = false → s.hangIn = none →
    (∃ t : State, steps ((if s.op = opInit then 10 else 31) - s.upc.toNat) s = .next t ∧
      t.active = false ∧ t.upc = (if s.op = opInit then 9#5 else 30#5)) ∧
    ∀ k : Nat, k < (if s.op = opInit then 10 else 31) - s.upc.toNat →
      ∃ u : State, steps k s = .next u ∧ u.active = true ∧ u.upc.toNat = s.upc.toNat + k

/-- R174, R286 to R288: the waits. The delays that a run of INIT appends to EV sum to T_INIT_US, those of a run of READ or
GETTH to T_MEAS_US + T_POST_US, whatever bytes are read; and the only DLY words of the ROM are 8, 17 and 29, with these
parameters. -/
def Obligations.DelaysOfTheMicroPrograms : Prop :=
  (∀ (d : Delays) (s : State) (b : BitVec 16) (rest : List Word24),
    Presented d (hostWord 0x01#8 b) rest s → s.bound = false →
      ∃ t : State, steps 11 s = .next t ∧ t.active = false ∧
        totalDelay t.ev = totalDelay s.ev + d.tInit.toNat) ∧
  (∀ (d : Delays) (s : State) (w : Word24) (harg : BitVec 16) (rest : List Word24),
    w = hostWord 0x02#8 harg ∨ w = hostWord 0x03#8 harg → Presented d w rest s → s.bound = true →
      ∃ t : State, steps 22 s = .next t ∧ t.active = false ∧
        totalDelay t.ev = totalDelay s.ev + d.tMeas.toNat + d.tPost.toNat) ∧
  ∀ (d : Delays) (n : Fin 32) (x : BitVec 20),
    decode (.u24 (romOf d)[n]) = .ok (.dly x) ↔
      (n.val = 8 ∧ x = d.tInit) ∨ (n.val = 17 ∧ x = d.tMeas) ∨ (n.val = 29 ∧ x = d.tPost)

/-! ### Invariants and whole-machine rules -/

/-- R47: the state after reset has the invariant and an empty, accepted history, with the default delays. -/
def Obligations.ResetHasTheInvariants : Prop :=
  Inv Config.defaultDelays State.reset ∧ BusInv State.reset ∧ State.reset.active = false ∧
    State.reset.bound = false ∧ State.reset.ev = []

/-- R29, R75, R161, R166, R191, R226: every step keeps the invariant of the two micro-programs. -/
def Obligations.EveryStepKeepsTheInvariant : Prop :=
  ∀ (d : Delays) (s t : State), Inv d s → step s = .next t → Inv d t

/-- R145, R72: whatever the block does, its history on the bus stays one the monitor accepts: every transaction is
Start, exactly TR_NBYTES transfers in the direction TR_MODE, Stop, with nothing else inside it. -/
def Obligations.EveryStepKeepsTheBusDiscipline : Prop :=
  ∀ (d : Delays) (s t : State), Inv d s → BusInv s → step s = .next t → BusInv t

/-- R100, R101: a running sequencer never meets a reserved word: its step runs the micro-operation that stands at UPC in
the two programs of R109. -/
def Obligations.SequencerRunsTheListedProgram : Prop :=
  ∀ (d : Delays) (s : State), Inv d s → s.active = true →
    ∃ i : Instr, (initProgram d ++ readProgram d)[s.upc.toNat]? = some i ∧ i.isMicroOp = true ∧ step s = exec i s

/-- R145, R131 to R139: where the sequencer stands, the transport is ready for what it issues: WB and RB in an open
transaction of their direction with bytes left, STOP after exactly TR_NBYTES transfers, DLY with none open, START with the
device, count and direction of a command write or a response read. In READ and GETTH none is open at START and at the
configuration primitives; INIT configures before its own START, and what a reset in the middle of an operation left open
in the transport (R281) is not known there. -/
def Obligations.TransportIsReadyForEachPrimitive : Prop :=
  ∀ (d : Delays) (s : State), Inv d s → s.active = true →
    (∀ b : Byte, decode (.u24 (romWord s)) = .ok (.wb b) →
      s.tr.isOpen = true ∧ s.tr.mode = .write ∧ s.tr.xfer.toNat < s.tr.nbytes.toNat) ∧
    (∀ i : BitVec 3, decode (.u24 (romWord s)) = .ok (.rb i) →
      s.tr.isOpen = true ∧ s.tr.mode = .read ∧ s.tr.xfer.toNat = i.toNat ∧ s.tr.nbytes = 6#8) ∧
    (decode (.u24 (romWord s)) = .ok .stop → s.tr.isOpen = true ∧ s.tr.xfer = s.tr.nbytes) ∧
    (∀ n : BitVec 20, decode (.u24 (romWord s)) = .ok (.dly n) → s.tr.isOpen = false) ∧
    (decode (.u24 (romWord s)) = .ok .start →
      s.tr.addr = 0x38#7 ∧
      ((s.tr.nbytes = 3#8 ∧ s.tr.mode = .write) ∨ (s.tr.nbytes = 6#8 ∧ s.tr.mode = .read)) ∧
      (s.op ≠ opInit → s.tr.isOpen = false)) ∧
    ∀ i : Instr, decode (.u24 (romWord s)) = .ok i →
      ((∃ a, i = .saddr a) ∨ (∃ n, i = .scnt n) ∨ i = .srd ∨ i = .swr) →
        (s.op ≠ opInit → s.tr.isOpen = false) ∧ (s.op = opInit → s.upc.toNat < 3)

/-- R23 to R32, R37, R41, R46, R75, R138, R140, R169, R230: each register changes only by its writers; all three spaces,
read element by element. UPC has every instruction but FMT and END as a writer. R23 names RB alone as a writer of RAW;
that a received frame (RESP, STATUS) writes it as the RBs that carry it is the model's choice (log 14). -/
def Obligations.RegistersChangeOnlyByTheirWriters : Prop :=
  ∀ (i : Instr) (s t : State), exec i s = .next t →
    (∀ a : Nat, memRead .rom a t = memRead .rom a s) ∧
    ((∀ k : BitVec 3, i ≠ .rb k) → (∀ (st : Byte) (h r : BitVec 20), i ≠ .resp st h r) →
      (∀ b : Byte, i ≠ .status b) →
        (∀ a : Nat, memRead .raw a t = memRead .raw a s) ∧ t.rawWritten = s.rawWritten) ∧
    (∀ k : BitVec 3, i = .rb k → ∀ a : Nat, a ≠ k.toNat → memRead .raw a t = memRead .raw a s) ∧
    (¬(i = .endOp ∧ s.op = opGetth) →
      t.hraw = s.hraw ∧ t.traw = s.traw ∧ t.temp100 = s.temp100 ∧ t.humid100 = s.humid100 ∧
        t.status = s.status ∧ t.convWritten = s.convWritten) ∧
    ((∀ v : BitVec 16, i ≠ .fmt v) →
      (∀ a : Nat, memRead .str a t = memRead .str a s) ∧ t.strlen = s.strlen ∧ t.strWritten = s.strWritten) ∧
    ((∀ b : BitVec 16, i ≠ .init b) → t.busSpeed = s.busSpeed ∧ t.bound = s.bound) ∧
    (i.isHostOp = false → t.op = s.op) ∧
    (i.isHostOp = false → i ≠ .endOp → t.active = s.active) ∧
    (((∃ v : BitVec 16, i = .fmt v) ∨ i = .endOp) → t.upc = s.upc) ∧
    (i.issues = false → t.tr = s.tr ∧ t.ev = s.ev ∧ t.waiting = s.waiting)

/-- R32, R72: BOUND is never cleared, EV only grows, by at most one event a step where no frame is presented whole. -/
def Obligations.BoundStaysAndHistoryGrows : Prop :=
  ∀ s t : State, step s = .next t →
    (s.bound = true → t.bound = true) ∧
    (∃ es : List Event, t.ev = s.ev ++ es ∧ (s.wire = [] → es.length ≤ 1))

/-- R130, R168: nothing the block does next depends on the data it has read or will read, the status byte included: two
states alike in control stop alike or step to states alike in control. -/
def Obligations.ControlNeverDependsOnData : Prop :=
  ∀ s s' : State, SameControl s s' → SameOutcome (step s) (step s')

/-! ### Converter -/

/-- R192 to R194: HRAW is P[39:20] and TRAW is P[19:0] of the packed value, and "{HRAW, TRAW} = P": the packed value is
recovered exactly from the two fields. -/
def Obligations.UnpackerSplitsThePackedValue : Prop :=
  ∀ raw : Vector Byte 6,
    hrawOf raw = (packed raw).extractLsb' 20 20 ∧ trawOf raw = (packed raw).extractLsb' 0 20 ∧
    ((hrawOf raw).setWidth 40 <<< 20) ||| (trawOf raw).setWidth 40 = packed raw

/-- R192, R193: the two fields as numbers. -/
def Obligations.UnpackerFieldsAsNumbers : Prop :=
  ∀ r1 r2 r3 r4 r5 : Byte,
    (unpackH r1 r2 r3).toNat = r1.toNat * 4096 + r2.toNat * 16 + r3.toNat / 16 ∧
    (unpackT r3 r4 r5).toNat = r3.toNat % 16 * 65536 + r4.toNat * 256 + r5.toNat

/-- R195, R198: TEMP100 as a signed number, its range, and that the product fits 30 bits. -/
def Obligations.TemperatureFormula : Prop :=
  ∀ t : BitVec 20,
    (scaleT t).toInt = ((t.toNat * 625 / 32768 : Nat) : Int) - 5000 ∧
      -5000 ≤ (scaleT t).toInt ∧ (scaleT t).toInt ≤ 14999 ∧ tempProduct t < 2 ^ 30

/-- R200: the temperature formula is exact: `(TRAW * 625) / 32768 = floor(TRAW * 20000 / 2^20)`. -/
def Obligations.TemperatureFormulaIsExact : Prop :=
  ∀ t : BitVec 20, tempQuotient t = t.toNat * 20000 / 2 ^ 20 ∧ (scaleT t).toInt = (tempQuotient t : Int) - 5000

/-- R196, R197: HUMID100 as a number, its range, and its distance from the humidity in percent: with h = HRAW,
0 <= h * 100 / 2^20 - HUMID100 < 1.0023 (both sides times 2^20 * 10000), never above the true floor and at most 1 below
it, equal to it for every h below 52429 and 1 below it at 52429. -/
def Obligations.HumidityFormulaAndItsBound : Prop :=
  ∀ h : BitVec 20,
    (scaleH h).toInt = ((h.toNat / 10486 : Nat) : Int) ∧ humidity h ≤ 99 ∧
    humidity h * 2 ^ 20 ≤ h.toNat * 100 ∧
    (h.toNat * 100 - humidity h * 2 ^ 20) * 10000 < 10023 * 2 ^ 20 ∧
    humidity h ≤ h.toNat * 100 / 2 ^ 20 ∧ h.toNat * 100 / 2 ^ 20 ≤ humidity h + 1 ∧
    (h.toNat < 52429 → humidity h = h.toNat * 100 / 2 ^ 20) ∧
    (h.toNat = 52429 → humidity h + 1 = h.toNat * 100 / 2 ^ 20)

/-- R192, R193, R202: the conversion of two RAW files that differ in the status byte alone is the same. -/
def Obligations.StatusByteNeverReachesTheReadings : Prop :=
  ∀ s s' : State, (∀ i : Fin 6, i.val ≠ 0 → s.raw[i] = s'.raw[i]) →
    (convert s).hraw = (convert s').hraw ∧ (convert s).traw = (convert s').traw ∧
    (convert s).temp100 = (convert s').temp100 ∧ (convert s).humid100 = (convert s').humid100 ∧
    (convert s).status = s.raw[0]

/-- R36, R105: the two wires at the two status values the source names. -/
def Obligations.StatusWiresAtTheNamedValues : Prop :=
  ∀ s : State,
    (s.status = 0x19#8 → stBusy s = false ∧ stCal s = true) ∧
    (s.status = 0x99#8 → stBusy s = true ∧ stCal s = true) ∧
    stBusy s = decide (128 ≤ s.status.toNat) ∧ stCal s = decide (8 ≤ s.status.toNat % 16)

/-! ### Formatter -/

/-- R220 to R226: FMT writes STR and STRLEN and nothing else: the sign prefix, the digits of W, the point, the digit D
and the terminator, each at its place, STRLEN counting the characters before the terminator. -/
def Obligations.FmtWritesTheStringLayout : Prop :=
  ∀ (s : State) (v : BitVec 16), s.active = false →
    ∃ t : State, exec (.fmt v) s = .next t ∧
      t = { s with str := t.str, strlen := t.strlen, strWritten := true, frees := s.frees + 7 } ∧
      ∃ sg k : Nat, sg = (if value100 v < 0 then 1 else 0) ∧ k = (wholeDigits (tenths v).1).length ∧
        1 ≤ k ∧ k ≤ 3 ∧ t.strlen.toNat = sg + k + 2 ∧
        (sg = 1 → t.str[0] = 0x2D#8) ∧
        (∀ j : Nat, j < k →
          t.str[sg + j]? = ((wholeDigits (tenths v).1)[j]?).map fun g => 0x30#8 + BitVec.ofNat 8 g) ∧
        t.str[sg + k]? = some 0x2E#8 ∧
        t.str[sg + k + 1]? = some (0x30#8 + BitVec.ofNat 8 (tenths v).2) ∧
        t.str[sg + k + 2]? = some 0x00#8

/-- R227: for every int16 the formatted string, read back, is the operand rounded half up in magnitude to tenths, with
the operand's own sign. -/
def Obligations.FormattedStringReadsBackRounded : Prop :=
  ∀ (s t : State) (v : BitVec 16), exec (.fmt v) s = .next t →
    readTenths (stringText t) = (decide (v.toInt < 0), (v.toInt.natAbs + 5) / 10)

/-- R224, R225: the only characters are an optional leading "-" (exactly for a negative operand), digits, and one point
before the last digit; no leading zero stands before another digit. -/
def Obligations.FormattedStringShape : Prop :=
  ∀ (s t : State) (v : BitVec 16), exec (.fmt v) s = .next t →
    ∃ (ds : List Byte) (d : Byte),
      stringText t = (if v.toInt < 0 then [0x2D#8] else []) ++ ds ++ [0x2E#8, d] ∧
      1 ≤ ds.length ∧ ds.length ≤ 3 ∧ (∀ c ∈ ds, isDigit c = true) ∧ isDigit d = true ∧
      (1 < ds.length → ds.head? ≠ some 0x30#8)

/-- R221, R223, R229: the working values: the identity X = 100 W + 10 D + R, the rounding law 10 W + D = (X + 5) / 10
after step 2, and the ranges. -/
def Obligations.FormatterWorkingValues : Prop :=
  ∀ v : BitVec 16,
    magnitude v ≤ 32768 ∧
    magnitude v = 100 * (decompose (magnitude v)).1 + 10 * (decompose (magnitude v)).2.1 +
      (decompose (magnitude v)).2.2 ∧
    (decompose (magnitude v)).1 ≤ 327 ∧ (decompose (magnitude v)).2.1 ≤ 9 ∧ (decompose (magnitude v)).2.2 ≤ 9 ∧
    10 * (tenths v).1 + (tenths v).2 = (magnitude v + 5) / 10 ∧ (tenths v).1 ≤ 327 ∧ (tenths v).2 ≤ 9

/-- R231: the source's own edge cases and literal scenarios, with the working values the rule gives for each: X, F, then
W, D, R before step 2, then W and D after it, and the text. -/
def Obligations.FmtSourceExamples : Prop :=
  ∀ s : State, s.active = false →
    ((magnitude (BitVec.ofInt 16 (-235)) = 235 ∧ magnitude (BitVec.ofInt 16 (-235)) % 100 = 35 ∧
        decompose (magnitude (BitVec.ofInt 16 (-235))) = (2, 3, 5) ∧ tenths (BitVec.ofInt 16 (-235)) = (2, 4)) ∧
      ∃ t, exec (.fmt (BitVec.ofInt 16 (-235))) s = .next t ∧ stringText t = [0x2D#8, 0x32#8, 0x2E#8, 0x34#8]) ∧
    ((magnitude 1996#16 % 100 = 96 ∧ decompose (magnitude 1996#16) = (19, 9, 6) ∧ tenths 1996#16 = (20, 0)) ∧
      ∃ t, exec (.fmt 1996#16) s = .next t ∧ stringText t = [0x32#8, 0x30#8, 0x2E#8, 0x30#8]) ∧
    (∃ t, exec (.fmt 0#16) s = .next t ∧ stringText t = [0x30#8, 0x2E#8, 0x30#8]) ∧
    ((magnitude 2753#16 % 100 = 53 ∧ decompose (magnitude 2753#16) = (27, 5, 3) ∧ tenths 2753#16 = (27, 5)) ∧
      ∃ t, exec (.fmt 2753#16) s = .next t ∧ stringText t = [0x32#8, 0x37#8, 0x2E#8, 0x35#8]) ∧
    ((magnitude 1236#16 % 100 = 36 ∧ decompose (magnitude 1236#16) = (12, 3, 6) ∧ tenths 1236#16 = (12, 4)) ∧
      ∃ t, exec (.fmt 1236#16) s = .next t ∧ stringText t = [0x31#8, 0x32#8, 0x2E#8, 0x34#8])

/-- R228: inputs -4 to -1 give "-0.0". -/
def Obligations.NegativeZeroKeepsItsSign : Prop :=
  ∀ (s t : State) (v : BitVec 16), -4 ≤ v.toInt → v.toInt ≤ -1 → exec (.fmt v) s = .next t →
    stringText t = [0x2D#8, 0x30#8, 0x2E#8, 0x30#8]

/-- R222: X is the mathematical absolute value, in 16 unsigned bits; |-32768| is 32768, and that input is formatted as
"-327.7" like -32767. The source does not discuss -32768: what it gives is the spec's decision D14, which the model follows
rather than refusing that one input, as U3 would let it (log 21). -/
def Obligations.MostNegativeInputIsFormatted : Prop :=
  (∀ v : BitVec 16, magnitude v = v.toInt.natAbs ∧ magnitude v < 2 ^ 16) ∧ magnitude 0x8000#16 = 32768 ∧
  ∀ (s t : State) (v : BitVec 16), v = 0x8000#16 ∨ v = 0x8001#16 → exec (.fmt v) s = .next t →
    stringText t = [0x2D#8, 0x33#8, 0x32#8, 0x37#8, 0x2E#8, 0x37#8]

/-! ### Host reads and power cycle -/

/-- R21, R47: after reset nothing has been written, and every host read is refused. -/
def Obligations.NothingIsReadableAfterReset : Prop :=
  ∀ r : ResultReg, hostRead r State.reset = .error .noValue

/-- R21, R226, R260, U5: after an accepted FMT the host reads STR and STRLEN; up to the terminator a read answers what FMT
has written, above it any value. That the elements above are read, as free values, and not refused is the model's choice
between U5 and R27 (log 9). A read answers the register's bits zero-extended to 20 (the model's choice, log 24). -/
def Obligations.StringIsReadableAfterFmt : Prop :=
  ∀ (s t : State) (v : BitVec 16), exec (.fmt v) s = .next t →
    (∀ i : Fin 7, i.val ≤ t.strlen.toNat → hostRead (.str i) t = .ok (t.str[i].setWidth 20)) ∧
    (∀ i : Fin 7, t.strlen.toNat < i.val →
      hostRead (.str i) t = .ok ((Config.freeByte (s.frees + i.val)).setWidth 20)) ∧
    hostRead .strlen t = .ok (t.strlen.setWidth 20)

/-- R21, R190, R260: once a GETTH has completed, the host reads all its results and RAW; while any operation runs it
reads nothing. A read answers the register's own bits, zero-extended to 20, TEMP100 and HUMID100 too (the model's choice,
log 24). -/
def Obligations.ResultsAreReadableAfterGetth : Prop :=
  (∀ (d : Delays) (s t : State), Inv d s → s.upc = 30#5 → s.active = true → s.op = opGetth → step s = .next t →
    hostRead .hraw t = .ok (hrawOf s.raw) ∧ hostRead .traw t = .ok (trawOf s.raw) ∧
    hostRead .temp100 t = .ok ((scaleT (trawOf s.raw)).setWidth 20) ∧
    hostRead .humid100 t = .ok ((scaleH (hrawOf s.raw)).setWidth 20) ∧
    hostRead .status t = .ok (s.raw[0].setWidth 20) ∧
    ∀ i : Fin 6, hostRead (.raw i) t = .ok (s.raw[i].setWidth 20)) ∧
  ∀ (r : ResultReg) (s : State), s.active = true → hostRead r s = .error .busy

/-- R280, R281, R283, U8: after a power cycle the block is idle and unbound with an empty history and no primitive
outstanding, nothing is readable, READ and GETTH are refused and INIT is accepted, and the invariant holds, whatever
configuration the transport is left in, whether or not a collaborator hangs after it, and whatever bytes come. That a power
cycle is an operation and no step is the model's choice (log 18). -/
def Obligations.PowerCycleNeedsInitAgain : Prop :=
  ∀ (d : Delays) (s p : State) (tr : Transport) (hang : Option Nat) (env : List Byte), s.rom = romOf d →
    p = powerCycle tr hang env s →
      p.active = false ∧ p.bound = false ∧ p.ev = [] ∧ p.waiting = false ∧
      p.tr = tr ∧ p.hangIn = hang ∧ p.env = env ∧
      (∀ r : ResultReg, hostRead r p = .error .noValue) ∧
      exec .read p = .refused .notBound ∧ exec .getth p = .refused .notBound ∧
      (∀ b : BitVec 16, ∃ t : State, exec (.init b) p = .next t) ∧
      Inv d p
end

