-- ==== Sys2Proof/Laws/State.lean ====
section
/-! SUPPORT. One lemma per field per update of State, each true by rfl, so that no later proof unfolds an update. -/

namespace Sys2Proof.Machine.State

/-! ### advance -/

@[simp] theorem advance_upc (s : State) : s.advance.upc = nextUpc s.upc := rfl
@[simp] theorem advance_active (s : State) : s.advance.active = s.active := rfl
@[simp] theorem advance_op (s : State) : s.advance.op = s.op := rfl
@[simp] theorem advance_bound (s : State) : s.advance.bound = s.bound := rfl
@[simp] theorem advance_busSpeed (s : State) : s.advance.busSpeed = s.busSpeed := rfl
@[simp] theorem advance_rom (s : State) : s.advance.rom = s.rom := rfl
@[simp] theorem advance_raw (s : State) : s.advance.raw = s.raw := rfl
@[simp] theorem advance_hraw (s : State) : s.advance.hraw = s.hraw := rfl
@[simp] theorem advance_traw (s : State) : s.advance.traw = s.traw := rfl
@[simp] theorem advance_temp100 (s : State) : s.advance.temp100 = s.temp100 := rfl
@[simp] theorem advance_humid100 (s : State) : s.advance.humid100 = s.humid100 := rfl
@[simp] theorem advance_status (s : State) : s.advance.status = s.status := rfl
@[simp] theorem advance_str (s : State) : s.advance.str = s.str := rfl
@[simp] theorem advance_strlen (s : State) : s.advance.strlen = s.strlen := rfl
@[simp] theorem advance_rawWritten (s : State) : s.advance.rawWritten = s.rawWritten := rfl
@[simp] theorem advance_convWritten (s : State) : s.advance.convWritten = s.convWritten := rfl
@[simp] theorem advance_strWritten (s : State) : s.advance.strWritten = s.strWritten := rfl
@[simp] theorem advance_tr (s : State) : s.advance.tr = s.tr := rfl
@[simp] theorem advance_ev (s : State) : s.advance.ev = s.ev := rfl
@[simp] theorem advance_hostq (s : State) : s.advance.hostq = s.hostq := rfl
@[simp] theorem advance_wire (s : State) : s.advance.wire = s.wire := rfl
@[simp] theorem advance_env (s : State) : s.advance.env = s.env := rfl
@[simp] theorem advance_hangIn (s : State) : s.advance.hangIn = s.hangIn := rfl
@[simp] theorem advance_waiting (s : State) : s.advance.waiting = s.waiting := rfl
@[simp] theorem advance_draws (s : State) : s.advance.draws = s.draws := rfl
@[simp] theorem advance_frees (s : State) : s.advance.frees = s.frees := rfl

/-! ### setAddr -/

@[simp] theorem setAddr_upc (a : BitVec 7) (s : State) : (s.setAddr a).upc = s.upc := rfl
@[simp] theorem setAddr_active (a : BitVec 7) (s : State) : (s.setAddr a).active = s.active := rfl
@[simp] theorem setAddr_op (a : BitVec 7) (s : State) : (s.setAddr a).op = s.op := rfl
@[simp] theorem setAddr_bound (a : BitVec 7) (s : State) : (s.setAddr a).bound = s.bound := rfl
@[simp] theorem setAddr_busSpeed (a : BitVec 7) (s : State) : (s.setAddr a).busSpeed = s.busSpeed := rfl
@[simp] theorem setAddr_rom (a : BitVec 7) (s : State) : (s.setAddr a).rom = s.rom := rfl
@[simp] theorem setAddr_raw (a : BitVec 7) (s : State) : (s.setAddr a).raw = s.raw := rfl
@[simp] theorem setAddr_hraw (a : BitVec 7) (s : State) : (s.setAddr a).hraw = s.hraw := rfl
@[simp] theorem setAddr_traw (a : BitVec 7) (s : State) : (s.setAddr a).traw = s.traw := rfl
@[simp] theorem setAddr_temp100 (a : BitVec 7) (s : State) : (s.setAddr a).temp100 = s.temp100 := rfl
@[simp] theorem setAddr_humid100 (a : BitVec 7) (s : State) : (s.setAddr a).humid100 = s.humid100 := rfl
@[simp] theorem setAddr_status (a : BitVec 7) (s : State) : (s.setAddr a).status = s.status := rfl
@[simp] theorem setAddr_str (a : BitVec 7) (s : State) : (s.setAddr a).str = s.str := rfl
@[simp] theorem setAddr_strlen (a : BitVec 7) (s : State) : (s.setAddr a).strlen = s.strlen := rfl
@[simp] theorem setAddr_rawWritten (a : BitVec 7) (s : State) : (s.setAddr a).rawWritten = s.rawWritten := rfl
@[simp] theorem setAddr_convWritten (a : BitVec 7) (s : State) : (s.setAddr a).convWritten = s.convWritten := rfl
@[simp] theorem setAddr_strWritten (a : BitVec 7) (s : State) : (s.setAddr a).strWritten = s.strWritten := rfl
@[simp] theorem setAddr_tr (a : BitVec 7) (s : State) : (s.setAddr a).tr = { s.tr with addr := a } := rfl
@[simp] theorem setAddr_ev (a : BitVec 7) (s : State) : (s.setAddr a).ev = s.ev := rfl
@[simp] theorem setAddr_hostq (a : BitVec 7) (s : State) : (s.setAddr a).hostq = s.hostq := rfl
@[simp] theorem setAddr_wire (a : BitVec 7) (s : State) : (s.setAddr a).wire = s.wire := rfl
@[simp] theorem setAddr_env (a : BitVec 7) (s : State) : (s.setAddr a).env = s.env := rfl
@[simp] theorem setAddr_hangIn (a : BitVec 7) (s : State) : (s.setAddr a).hangIn = s.hangIn := rfl
@[simp] theorem setAddr_waiting (a : BitVec 7) (s : State) : (s.setAddr a).waiting = s.waiting := rfl
@[simp] theorem setAddr_draws (a : BitVec 7) (s : State) : (s.setAddr a).draws = s.draws := rfl
@[simp] theorem setAddr_frees (a : BitVec 7) (s : State) : (s.setAddr a).frees = s.frees := rfl

/-! ### setNbytes -/

@[simp] theorem setNbytes_upc (n : BitVec 8) (s : State) : (s.setNbytes n).upc = s.upc := rfl
@[simp] theorem setNbytes_active (n : BitVec 8) (s : State) : (s.setNbytes n).active = s.active := rfl
@[simp] theorem setNbytes_op (n : BitVec 8) (s : State) : (s.setNbytes n).op = s.op := rfl
@[simp] theorem setNbytes_bound (n : BitVec 8) (s : State) : (s.setNbytes n).bound = s.bound := rfl
@[simp] theorem setNbytes_busSpeed (n : BitVec 8) (s : State) : (s.setNbytes n).busSpeed = s.busSpeed := rfl
@[simp] theorem setNbytes_rom (n : BitVec 8) (s : State) : (s.setNbytes n).rom = s.rom := rfl
@[simp] theorem setNbytes_raw (n : BitVec 8) (s : State) : (s.setNbytes n).raw = s.raw := rfl
@[simp] theorem setNbytes_hraw (n : BitVec 8) (s : State) : (s.setNbytes n).hraw = s.hraw := rfl
@[simp] theorem setNbytes_traw (n : BitVec 8) (s : State) : (s.setNbytes n).traw = s.traw := rfl
@[simp] theorem setNbytes_temp100 (n : BitVec 8) (s : State) : (s.setNbytes n).temp100 = s.temp100 := rfl
@[simp] theorem setNbytes_humid100 (n : BitVec 8) (s : State) : (s.setNbytes n).humid100 = s.humid100 := rfl
@[simp] theorem setNbytes_status (n : BitVec 8) (s : State) : (s.setNbytes n).status = s.status := rfl
@[simp] theorem setNbytes_str (n : BitVec 8) (s : State) : (s.setNbytes n).str = s.str := rfl
@[simp] theorem setNbytes_strlen (n : BitVec 8) (s : State) : (s.setNbytes n).strlen = s.strlen := rfl
@[simp] theorem setNbytes_rawWritten (n : BitVec 8) (s : State) : (s.setNbytes n).rawWritten = s.rawWritten := rfl
@[simp] theorem setNbytes_convWritten (n : BitVec 8) (s : State) : (s.setNbytes n).convWritten = s.convWritten := rfl
@[simp] theorem setNbytes_strWritten (n : BitVec 8) (s : State) : (s.setNbytes n).strWritten = s.strWritten := rfl
@[simp] theorem setNbytes_tr (n : BitVec 8) (s : State) : (s.setNbytes n).tr = { s.tr with nbytes := n } := rfl
@[simp] theorem setNbytes_ev (n : BitVec 8) (s : State) : (s.setNbytes n).ev = s.ev := rfl
@[simp] theorem setNbytes_hostq (n : BitVec 8) (s : State) : (s.setNbytes n).hostq = s.hostq := rfl
@[simp] theorem setNbytes_wire (n : BitVec 8) (s : State) : (s.setNbytes n).wire = s.wire := rfl
@[simp] theorem setNbytes_env (n : BitVec 8) (s : State) : (s.setNbytes n).env = s.env := rfl
@[simp] theorem setNbytes_hangIn (n : BitVec 8) (s : State) : (s.setNbytes n).hangIn = s.hangIn := rfl
@[simp] theorem setNbytes_waiting (n : BitVec 8) (s : State) : (s.setNbytes n).waiting = s.waiting := rfl
@[simp] theorem setNbytes_draws (n : BitVec 8) (s : State) : (s.setNbytes n).draws = s.draws := rfl
@[simp] theorem setNbytes_frees (n : BitVec 8) (s : State) : (s.setNbytes n).frees = s.frees := rfl

/-! ### setMode -/

@[simp] theorem setMode_upc (m : Direction) (s : State) : (s.setMode m).upc = s.upc := rfl
@[simp] theorem setMode_active (m : Direction) (s : State) : (s.setMode m).active = s.active := rfl
@[simp] theorem setMode_op (m : Direction) (s : State) : (s.setMode m).op = s.op := rfl
@[simp] theorem setMode_bound (m : Direction) (s : State) : (s.setMode m).bound = s.bound := rfl
@[simp] theorem setMode_busSpeed (m : Direction) (s : State) : (s.setMode m).busSpeed = s.busSpeed := rfl
@[simp] theorem setMode_rom (m : Direction) (s : State) : (s.setMode m).rom = s.rom := rfl
@[simp] theorem setMode_raw (m : Direction) (s : State) : (s.setMode m).raw = s.raw := rfl
@[simp] theorem setMode_hraw (m : Direction) (s : State) : (s.setMode m).hraw = s.hraw := rfl
@[simp] theorem setMode_traw (m : Direction) (s : State) : (s.setMode m).traw = s.traw := rfl
@[simp] theorem setMode_temp100 (m : Direction) (s : State) : (s.setMode m).temp100 = s.temp100 := rfl
@[simp] theorem setMode_humid100 (m : Direction) (s : State) : (s.setMode m).humid100 = s.humid100 := rfl
@[simp] theorem setMode_status (m : Direction) (s : State) : (s.setMode m).status = s.status := rfl
@[simp] theorem setMode_str (m : Direction) (s : State) : (s.setMode m).str = s.str := rfl
@[simp] theorem setMode_strlen (m : Direction) (s : State) : (s.setMode m).strlen = s.strlen := rfl
@[simp] theorem setMode_rawWritten (m : Direction) (s : State) : (s.setMode m).rawWritten = s.rawWritten := rfl
@[simp] theorem setMode_convWritten (m : Direction) (s : State) : (s.setMode m).convWritten = s.convWritten := rfl
@[simp] theorem setMode_strWritten (m : Direction) (s : State) : (s.setMode m).strWritten = s.strWritten := rfl
@[simp] theorem setMode_tr (m : Direction) (s : State) : (s.setMode m).tr = { s.tr with mode := m } := rfl
@[simp] theorem setMode_ev (m : Direction) (s : State) : (s.setMode m).ev = s.ev := rfl
@[simp] theorem setMode_hostq (m : Direction) (s : State) : (s.setMode m).hostq = s.hostq := rfl
@[simp] theorem setMode_wire (m : Direction) (s : State) : (s.setMode m).wire = s.wire := rfl
@[simp] theorem setMode_env (m : Direction) (s : State) : (s.setMode m).env = s.env := rfl
@[simp] theorem setMode_hangIn (m : Direction) (s : State) : (s.setMode m).hangIn = s.hangIn := rfl
@[simp] theorem setMode_waiting (m : Direction) (s : State) : (s.setMode m).waiting = s.waiting := rfl
@[simp] theorem setMode_draws (m : Direction) (s : State) : (s.setMode m).draws = s.draws := rfl
@[simp] theorem setMode_frees (m : Direction) (s : State) : (s.setMode m).frees = s.frees := rfl

/-! ### openTransfer -/

@[simp] theorem openTransfer_upc (s : State) : s.openTransfer.upc = s.upc := rfl
@[simp] theorem openTransfer_active (s : State) : s.openTransfer.active = s.active := rfl
@[simp] theorem openTransfer_op (s : State) : s.openTransfer.op = s.op := rfl
@[simp] theorem openTransfer_bound (s : State) : s.openTransfer.bound = s.bound := rfl
@[simp] theorem openTransfer_busSpeed (s : State) : s.openTransfer.busSpeed = s.busSpeed := rfl
@[simp] theorem openTransfer_rom (s : State) : s.openTransfer.rom = s.rom := rfl
@[simp] theorem openTransfer_raw (s : State) : s.openTransfer.raw = s.raw := rfl
@[simp] theorem openTransfer_hraw (s : State) : s.openTransfer.hraw = s.hraw := rfl
@[simp] theorem openTransfer_traw (s : State) : s.openTransfer.traw = s.traw := rfl
@[simp] theorem openTransfer_temp100 (s : State) : s.openTransfer.temp100 = s.temp100 := rfl
@[simp] theorem openTransfer_humid100 (s : State) : s.openTransfer.humid100 = s.humid100 := rfl
@[simp] theorem openTransfer_status (s : State) : s.openTransfer.status = s.status := rfl
@[simp] theorem openTransfer_str (s : State) : s.openTransfer.str = s.str := rfl
@[simp] theorem openTransfer_strlen (s : State) : s.openTransfer.strlen = s.strlen := rfl
@[simp] theorem openTransfer_rawWritten (s : State) : s.openTransfer.rawWritten = s.rawWritten := rfl
@[simp] theorem openTransfer_convWritten (s : State) : s.openTransfer.convWritten = s.convWritten := rfl
@[simp] theorem openTransfer_strWritten (s : State) : s.openTransfer.strWritten = s.strWritten := rfl
@[simp] theorem openTransfer_tr (s : State) : s.openTransfer.tr = { s.tr with isOpen := true, xfer := 0#8 } := rfl
@[simp] theorem openTransfer_ev (s : State) : s.openTransfer.ev = s.ev := rfl
@[simp] theorem openTransfer_hostq (s : State) : s.openTransfer.hostq = s.hostq := rfl
@[simp] theorem openTransfer_wire (s : State) : s.openTransfer.wire = s.wire := rfl
@[simp] theorem openTransfer_env (s : State) : s.openTransfer.env = s.env := rfl
@[simp] theorem openTransfer_hangIn (s : State) : s.openTransfer.hangIn = s.hangIn := rfl
@[simp] theorem openTransfer_waiting (s : State) : s.openTransfer.waiting = s.waiting := rfl
@[simp] theorem openTransfer_draws (s : State) : s.openTransfer.draws = s.draws := rfl
@[simp] theorem openTransfer_frees (s : State) : s.openTransfer.frees = s.frees := rfl

/-! ### closeTransfer -/

@[simp] theorem closeTransfer_upc (s : State) : s.closeTransfer.upc = s.upc := rfl
@[simp] theorem closeTransfer_active (s : State) : s.closeTransfer.active = s.active := rfl
@[simp] theorem closeTransfer_op (s : State) : s.closeTransfer.op = s.op := rfl
@[simp] theorem closeTransfer_bound (s : State) : s.closeTransfer.bound = s.bound := rfl
@[simp] theorem closeTransfer_busSpeed (s : State) : s.closeTransfer.busSpeed = s.busSpeed := rfl
@[simp] theorem closeTransfer_rom (s : State) : s.closeTransfer.rom = s.rom := rfl
@[simp] theorem closeTransfer_raw (s : State) : s.closeTransfer.raw = s.raw := rfl
@[simp] theorem closeTransfer_hraw (s : State) : s.closeTransfer.hraw = s.hraw := rfl
@[simp] theorem closeTransfer_traw (s : State) : s.closeTransfer.traw = s.traw := rfl
@[simp] theorem closeTransfer_temp100 (s : State) : s.closeTransfer.temp100 = s.temp100 := rfl
@[simp] theorem closeTransfer_humid100 (s : State) : s.closeTransfer.humid100 = s.humid100 := rfl
@[simp] theorem closeTransfer_status (s : State) : s.closeTransfer.status = s.status := rfl
@[simp] theorem closeTransfer_str (s : State) : s.closeTransfer.str = s.str := rfl
@[simp] theorem closeTransfer_strlen (s : State) : s.closeTransfer.strlen = s.strlen := rfl
@[simp] theorem closeTransfer_rawWritten (s : State) : s.closeTransfer.rawWritten = s.rawWritten := rfl
@[simp] theorem closeTransfer_convWritten (s : State) : s.closeTransfer.convWritten = s.convWritten := rfl
@[simp] theorem closeTransfer_strWritten (s : State) : s.closeTransfer.strWritten = s.strWritten := rfl
@[simp] theorem closeTransfer_tr (s : State) : s.closeTransfer.tr = { s.tr with isOpen := false } := rfl
@[simp] theorem closeTransfer_ev (s : State) : s.closeTransfer.ev = s.ev := rfl
@[simp] theorem closeTransfer_hostq (s : State) : s.closeTransfer.hostq = s.hostq := rfl
@[simp] theorem closeTransfer_wire (s : State) : s.closeTransfer.wire = s.wire := rfl
@[simp] theorem closeTransfer_env (s : State) : s.closeTransfer.env = s.env := rfl
@[simp] theorem closeTransfer_hangIn (s : State) : s.closeTransfer.hangIn = s.hangIn := rfl
@[simp] theorem closeTransfer_waiting (s : State) : s.closeTransfer.waiting = s.waiting := rfl
@[simp] theorem closeTransfer_draws (s : State) : s.closeTransfer.draws = s.draws := rfl
@[simp] theorem closeTransfer_frees (s : State) : s.closeTransfer.frees = s.frees := rfl

/-! ### countTransfer -/

@[simp] theorem countTransfer_upc (s : State) : s.countTransfer.upc = s.upc := rfl
@[simp] theorem countTransfer_active (s : State) : s.countTransfer.active = s.active := rfl
@[simp] theorem countTransfer_op (s : State) : s.countTransfer.op = s.op := rfl
@[simp] theorem countTransfer_bound (s : State) : s.countTransfer.bound = s.bound := rfl
@[simp] theorem countTransfer_busSpeed (s : State) : s.countTransfer.busSpeed = s.busSpeed := rfl
@[simp] theorem countTransfer_rom (s : State) : s.countTransfer.rom = s.rom := rfl
@[simp] theorem countTransfer_raw (s : State) : s.countTransfer.raw = s.raw := rfl
@[simp] theorem countTransfer_hraw (s : State) : s.countTransfer.hraw = s.hraw := rfl
@[simp] theorem countTransfer_traw (s : State) : s.countTransfer.traw = s.traw := rfl
@[simp] theorem countTransfer_temp100 (s : State) : s.countTransfer.temp100 = s.temp100 := rfl
@[simp] theorem countTransfer_humid100 (s : State) : s.countTransfer.humid100 = s.humid100 := rfl
@[simp] theorem countTransfer_status (s : State) : s.countTransfer.status = s.status := rfl
@[simp] theorem countTransfer_str (s : State) : s.countTransfer.str = s.str := rfl
@[simp] theorem countTransfer_strlen (s : State) : s.countTransfer.strlen = s.strlen := rfl
@[simp] theorem countTransfer_rawWritten (s : State) : s.countTransfer.rawWritten = s.rawWritten := rfl
@[simp] theorem countTransfer_convWritten (s : State) : s.countTransfer.convWritten = s.convWritten := rfl
@[simp] theorem countTransfer_strWritten (s : State) : s.countTransfer.strWritten = s.strWritten := rfl
@[simp] theorem countTransfer_tr (s : State) : s.countTransfer.tr = { s.tr with xfer := nextXfer s.tr.xfer } := rfl
@[simp] theorem countTransfer_ev (s : State) : s.countTransfer.ev = s.ev := rfl
@[simp] theorem countTransfer_hostq (s : State) : s.countTransfer.hostq = s.hostq := rfl
@[simp] theorem countTransfer_wire (s : State) : s.countTransfer.wire = s.wire := rfl
@[simp] theorem countTransfer_env (s : State) : s.countTransfer.env = s.env := rfl
@[simp] theorem countTransfer_hangIn (s : State) : s.countTransfer.hangIn = s.hangIn := rfl
@[simp] theorem countTransfer_waiting (s : State) : s.countTransfer.waiting = s.waiting := rfl
@[simp] theorem countTransfer_draws (s : State) : s.countTransfer.draws = s.draws := rfl
@[simp] theorem countTransfer_frees (s : State) : s.countTransfer.frees = s.frees := rfl

/-! ### consume -/

@[simp] theorem consume_upc (s : State) : s.consume.upc = s.upc := rfl
@[simp] theorem consume_active (s : State) : s.consume.active = s.active := rfl
@[simp] theorem consume_op (s : State) : s.consume.op = s.op := rfl
@[simp] theorem consume_bound (s : State) : s.consume.bound = s.bound := rfl
@[simp] theorem consume_busSpeed (s : State) : s.consume.busSpeed = s.busSpeed := rfl
@[simp] theorem consume_rom (s : State) : s.consume.rom = s.rom := rfl
@[simp] theorem consume_raw (s : State) : s.consume.raw = s.raw := rfl
@[simp] theorem consume_hraw (s : State) : s.consume.hraw = s.hraw := rfl
@[simp] theorem consume_traw (s : State) : s.consume.traw = s.traw := rfl
@[simp] theorem consume_temp100 (s : State) : s.consume.temp100 = s.temp100 := rfl
@[simp] theorem consume_humid100 (s : State) : s.consume.humid100 = s.humid100 := rfl
@[simp] theorem consume_status (s : State) : s.consume.status = s.status := rfl
@[simp] theorem consume_str (s : State) : s.consume.str = s.str := rfl
@[simp] theorem consume_strlen (s : State) : s.consume.strlen = s.strlen := rfl
@[simp] theorem consume_rawWritten (s : State) : s.consume.rawWritten = s.rawWritten := rfl
@[simp] theorem consume_convWritten (s : State) : s.consume.convWritten = s.convWritten := rfl
@[simp] theorem consume_strWritten (s : State) : s.consume.strWritten = s.strWritten := rfl
@[simp] theorem consume_tr (s : State) : s.consume.tr = s.tr := rfl
@[simp] theorem consume_ev (s : State) : s.consume.ev = s.ev := rfl
@[simp] theorem consume_hostq (s : State) : s.consume.hostq = s.hostq := rfl
@[simp] theorem consume_wire (s : State) : s.consume.wire = s.wire := rfl
@[simp] theorem consume_env (s : State) : s.consume.env = s.env.tail := rfl
@[simp] theorem consume_hangIn (s : State) : s.consume.hangIn = s.hangIn := rfl
@[simp] theorem consume_waiting (s : State) : s.consume.waiting = s.waiting := rfl
@[simp] theorem consume_draws (s : State) : s.consume.draws = s.draws + 1 := rfl
@[simp] theorem consume_frees (s : State) : s.consume.frees = s.frees := rfl

/-! ### setRaw -/

@[simp] theorem setRaw_upc (i : Fin 6) (b : Byte) (s : State) : (s.setRaw i b).upc = s.upc := rfl
@[simp] theorem setRaw_active (i : Fin 6) (b : Byte) (s : State) : (s.setRaw i b).active = s.active := rfl
@[simp] theorem setRaw_op (i : Fin 6) (b : Byte) (s : State) : (s.setRaw i b).op = s.op := rfl
@[simp] theorem setRaw_bound (i : Fin 6) (b : Byte) (s : State) : (s.setRaw i b).bound = s.bound := rfl
@[simp] theorem setRaw_busSpeed (i : Fin 6) (b : Byte) (s : State) : (s.setRaw i b).busSpeed = s.busSpeed := rfl
@[simp] theorem setRaw_rom (i : Fin 6) (b : Byte) (s : State) : (s.setRaw i b).rom = s.rom := rfl
@[simp] theorem setRaw_raw (i : Fin 6) (b : Byte) (s : State) : (s.setRaw i b).raw = s.raw.set i b := rfl
@[simp] theorem setRaw_hraw (i : Fin 6) (b : Byte) (s : State) : (s.setRaw i b).hraw = s.hraw := rfl
@[simp] theorem setRaw_traw (i : Fin 6) (b : Byte) (s : State) : (s.setRaw i b).traw = s.traw := rfl
@[simp] theorem setRaw_temp100 (i : Fin 6) (b : Byte) (s : State) : (s.setRaw i b).temp100 = s.temp100 := rfl
@[simp] theorem setRaw_humid100 (i : Fin 6) (b : Byte) (s : State) : (s.setRaw i b).humid100 = s.humid100 := rfl
@[simp] theorem setRaw_status (i : Fin 6) (b : Byte) (s : State) : (s.setRaw i b).status = s.status := rfl
@[simp] theorem setRaw_str (i : Fin 6) (b : Byte) (s : State) : (s.setRaw i b).str = s.str := rfl
@[simp] theorem setRaw_strlen (i : Fin 6) (b : Byte) (s : State) : (s.setRaw i b).strlen = s.strlen := rfl
@[simp] theorem setRaw_rawWritten (i : Fin 6) (b : Byte) (s : State) :
    (s.setRaw i b).rawWritten = s.rawWritten.set i true := rfl
@[simp] theorem setRaw_convWritten (i : Fin 6) (b : Byte) (s : State) :
    (s.setRaw i b).convWritten = s.convWritten := rfl
@[simp] theorem setRaw_strWritten (i : Fin 6) (b : Byte) (s : State) : (s.setRaw i b).strWritten = s.strWritten := rfl
@[simp] theorem setRaw_tr (i : Fin 6) (b : Byte) (s : State) : (s.setRaw i b).tr = s.tr := rfl
@[simp] theorem setRaw_ev (i : Fin 6) (b : Byte) (s : State) : (s.setRaw i b).ev = s.ev := rfl
@[simp] theorem setRaw_hostq (i : Fin 6) (b : Byte) (s : State) : (s.setRaw i b).hostq = s.hostq := rfl
@[simp] theorem setRaw_wire (i : Fin 6) (b : Byte) (s : State) : (s.setRaw i b).wire = s.wire := rfl
@[simp] theorem setRaw_env (i : Fin 6) (b : Byte) (s : State) : (s.setRaw i b).env = s.env := rfl
@[simp] theorem setRaw_hangIn (i : Fin 6) (b : Byte) (s : State) : (s.setRaw i b).hangIn = s.hangIn := rfl
@[simp] theorem setRaw_waiting (i : Fin 6) (b : Byte) (s : State) : (s.setRaw i b).waiting = s.waiting := rfl
@[simp] theorem setRaw_draws (i : Fin 6) (b : Byte) (s : State) : (s.setRaw i b).draws = s.draws := rfl
@[simp] theorem setRaw_frees (i : Fin 6) (b : Byte) (s : State) : (s.setRaw i b).frees = s.frees := rfl

/-! ### supply -/

@[simp] theorem supply_upc (bs : List Byte) (s : State) : (s.supply bs).upc = s.upc := rfl
@[simp] theorem supply_active (bs : List Byte) (s : State) : (s.supply bs).active = s.active := rfl
@[simp] theorem supply_op (bs : List Byte) (s : State) : (s.supply bs).op = s.op := rfl
@[simp] theorem supply_bound (bs : List Byte) (s : State) : (s.supply bs).bound = s.bound := rfl
@[simp] theorem supply_busSpeed (bs : List Byte) (s : State) : (s.supply bs).busSpeed = s.busSpeed := rfl
@[simp] theorem supply_rom (bs : List Byte) (s : State) : (s.supply bs).rom = s.rom := rfl
@[simp] theorem supply_raw (bs : List Byte) (s : State) : (s.supply bs).raw = s.raw := rfl
@[simp] theorem supply_hraw (bs : List Byte) (s : State) : (s.supply bs).hraw = s.hraw := rfl
@[simp] theorem supply_traw (bs : List Byte) (s : State) : (s.supply bs).traw = s.traw := rfl
@[simp] theorem supply_temp100 (bs : List Byte) (s : State) : (s.supply bs).temp100 = s.temp100 := rfl
@[simp] theorem supply_humid100 (bs : List Byte) (s : State) : (s.supply bs).humid100 = s.humid100 := rfl
@[simp] theorem supply_status (bs : List Byte) (s : State) : (s.supply bs).status = s.status := rfl
@[simp] theorem supply_str (bs : List Byte) (s : State) : (s.supply bs).str = s.str := rfl
@[simp] theorem supply_strlen (bs : List Byte) (s : State) : (s.supply bs).strlen = s.strlen := rfl
@[simp] theorem supply_rawWritten (bs : List Byte) (s : State) : (s.supply bs).rawWritten = s.rawWritten := rfl
@[simp] theorem supply_convWritten (bs : List Byte) (s : State) : (s.supply bs).convWritten = s.convWritten := rfl
@[simp] theorem supply_strWritten (bs : List Byte) (s : State) : (s.supply bs).strWritten = s.strWritten := rfl
@[simp] theorem supply_tr (bs : List Byte) (s : State) : (s.supply bs).tr = s.tr := rfl
@[simp] theorem supply_ev (bs : List Byte) (s : State) : (s.supply bs).ev = s.ev := rfl
@[simp] theorem supply_hostq (bs : List Byte) (s : State) : (s.supply bs).hostq = s.hostq := rfl
@[simp] theorem supply_wire (bs : List Byte) (s : State) : (s.supply bs).wire = s.wire := rfl
@[simp] theorem supply_env (bs : List Byte) (s : State) : (s.supply bs).env = bs ++ s.env := rfl
@[simp] theorem supply_hangIn (bs : List Byte) (s : State) : (s.supply bs).hangIn = s.hangIn := rfl
@[simp] theorem supply_waiting (bs : List Byte) (s : State) : (s.supply bs).waiting = s.waiting := rfl
@[simp] theorem supply_draws (bs : List Byte) (s : State) : (s.supply bs).draws = s.draws := rfl
@[simp] theorem supply_frees (bs : List Byte) (s : State) : (s.supply bs).frees = s.frees := rfl

/-! ### dispatch -/

@[simp] theorem dispatch_upc (o : BitVec 2) (e : BitVec 5) (s : State) : (s.dispatch o e).upc = e := rfl
@[simp] theorem dispatch_active (o : BitVec 2) (e : BitVec 5) (s : State) : (s.dispatch o e).active = true := rfl
@[simp] theorem dispatch_op (o : BitVec 2) (e : BitVec 5) (s : State) : (s.dispatch o e).op = o := rfl
@[simp] theorem dispatch_bound (o : BitVec 2) (e : BitVec 5) (s : State) : (s.dispatch o e).bound = s.bound := rfl
@[simp] theorem dispatch_busSpeed (o : BitVec 2) (e : BitVec 5) (s : State) :
    (s.dispatch o e).busSpeed = s.busSpeed := rfl
@[simp] theorem dispatch_rom (o : BitVec 2) (e : BitVec 5) (s : State) : (s.dispatch o e).rom = s.rom := rfl
@[simp] theorem dispatch_raw (o : BitVec 2) (e : BitVec 5) (s : State) : (s.dispatch o e).raw = s.raw := rfl
@[simp] theorem dispatch_hraw (o : BitVec 2) (e : BitVec 5) (s : State) : (s.dispatch o e).hraw = s.hraw := rfl
@[simp] theorem dispatch_traw (o : BitVec 2) (e : BitVec 5) (s : State) : (s.dispatch o e).traw = s.traw := rfl
@[simp] theorem dispatch_temp100 (o : BitVec 2) (e : BitVec 5) (s : State) :
    (s.dispatch o e).temp100 = s.temp100 := rfl
@[simp] theorem dispatch_humid100 (o : BitVec 2) (e : BitVec 5) (s : State) :
    (s.dispatch o e).humid100 = s.humid100 := rfl
@[simp] theorem dispatch_status (o : BitVec 2) (e : BitVec 5) (s : State) : (s.dispatch o e).status = s.status := rfl
@[simp] theorem dispatch_str (o : BitVec 2) (e : BitVec 5) (s : State) : (s.dispatch o e).str = s.str := rfl
@[simp] theorem dispatch_strlen (o : BitVec 2) (e : BitVec 5) (s : State) : (s.dispatch o e).strlen = s.strlen := rfl
@[simp] theorem dispatch_rawWritten (o : BitVec 2) (e : BitVec 5) (s : State) :
    (s.dispatch o e).rawWritten = s.rawWritten := rfl
@[simp] theorem dispatch_convWritten (o : BitVec 2) (e : BitVec 5) (s : State) :
    (s.dispatch o e).convWritten = s.convWritten := rfl
@[simp] theorem dispatch_strWritten (o : BitVec 2) (e : BitVec 5) (s : State) :
    (s.dispatch o e).strWritten = s.strWritten := rfl
@[simp] theorem dispatch_tr (o : BitVec 2) (e : BitVec 5) (s : State) : (s.dispatch o e).tr = s.tr := rfl
@[simp] theorem dispatch_ev (o : BitVec 2) (e : BitVec 5) (s : State) : (s.dispatch o e).ev = s.ev := rfl
@[simp] theorem dispatch_hostq (o : BitVec 2) (e : BitVec 5) (s : State) : (s.dispatch o e).hostq = s.hostq := rfl
@[simp] theorem dispatch_wire (o : BitVec 2) (e : BitVec 5) (s : State) : (s.dispatch o e).wire = s.wire := rfl
@[simp] theorem dispatch_env (o : BitVec 2) (e : BitVec 5) (s : State) : (s.dispatch o e).env = s.env := rfl
@[simp] theorem dispatch_hangIn (o : BitVec 2) (e : BitVec 5) (s : State) : (s.dispatch o e).hangIn = s.hangIn := rfl
@[simp] theorem dispatch_waiting (o : BitVec 2) (e : BitVec 5) (s : State) : (s.dispatch o e).waiting = s.waiting := rfl
@[simp] theorem dispatch_draws (o : BitVec 2) (e : BitVec 5) (s : State) : (s.dispatch o e).draws = s.draws := rfl
@[simp] theorem dispatch_frees (o : BitVec 2) (e : BitVec 5) (s : State) : (s.dispatch o e).frees = s.frees := rfl

/-! ### bind -/

@[simp] theorem bind_upc (b : BitVec 16) (s : State) : (s.bind b).upc = s.upc := rfl
@[simp] theorem bind_active (b : BitVec 16) (s : State) : (s.bind b).active = s.active := rfl
@[simp] theorem bind_op (b : BitVec 16) (s : State) : (s.bind b).op = s.op := rfl
@[simp] theorem bind_bound (b : BitVec 16) (s : State) : (s.bind b).bound = true := rfl
@[simp] theorem bind_busSpeed (b : BitVec 16) (s : State) : (s.bind b).busSpeed = b := rfl
@[simp] theorem bind_rom (b : BitVec 16) (s : State) : (s.bind b).rom = s.rom := rfl
@[simp] theorem bind_raw (b : BitVec 16) (s : State) : (s.bind b).raw = s.raw := rfl
@[simp] theorem bind_hraw (b : BitVec 16) (s : State) : (s.bind b).hraw = s.hraw := rfl
@[simp] theorem bind_traw (b : BitVec 16) (s : State) : (s.bind b).traw = s.traw := rfl
@[simp] theorem bind_temp100 (b : BitVec 16) (s : State) : (s.bind b).temp100 = s.temp100 := rfl
@[simp] theorem bind_humid100 (b : BitVec 16) (s : State) : (s.bind b).humid100 = s.humid100 := rfl
@[simp] theorem bind_status (b : BitVec 16) (s : State) : (s.bind b).status = s.status := rfl
@[simp] theorem bind_str (b : BitVec 16) (s : State) : (s.bind b).str = s.str := rfl
@[simp] theorem bind_strlen (b : BitVec 16) (s : State) : (s.bind b).strlen = s.strlen := rfl
@[simp] theorem bind_rawWritten (b : BitVec 16) (s : State) : (s.bind b).rawWritten = s.rawWritten := rfl
@[simp] theorem bind_convWritten (b : BitVec 16) (s : State) : (s.bind b).convWritten = s.convWritten := rfl
@[simp] theorem bind_strWritten (b : BitVec 16) (s : State) : (s.bind b).strWritten = s.strWritten := rfl
@[simp] theorem bind_tr (b : BitVec 16) (s : State) : (s.bind b).tr = s.tr := rfl
@[simp] theorem bind_ev (b : BitVec 16) (s : State) : (s.bind b).ev = s.ev := rfl
@[simp] theorem bind_hostq (b : BitVec 16) (s : State) : (s.bind b).hostq = s.hostq := rfl
@[simp] theorem bind_wire (b : BitVec 16) (s : State) : (s.bind b).wire = s.wire := rfl
@[simp] theorem bind_env (b : BitVec 16) (s : State) : (s.bind b).env = s.env := rfl
@[simp] theorem bind_hangIn (b : BitVec 16) (s : State) : (s.bind b).hangIn = s.hangIn := rfl
@[simp] theorem bind_waiting (b : BitVec 16) (s : State) : (s.bind b).waiting = s.waiting := rfl
@[simp] theorem bind_draws (b : BitVec 16) (s : State) : (s.bind b).draws = s.draws := rfl
@[simp] theorem bind_frees (b : BitVec 16) (s : State) : (s.bind b).frees = s.frees := rfl

/-! ### setResults -/

@[simp] theorem setResults_upc (h t : BitVec 20) (th hh : BitVec 16) (st : Byte) (s : State) :
    (s.setResults h t th hh st).upc = s.upc := rfl
@[simp] theorem setResults_active (h t : BitVec 20) (th hh : BitVec 16) (st : Byte) (s : State) :
    (s.setResults h t th hh st).active = s.active := rfl
@[simp] theorem setResults_op (h t : BitVec 20) (th hh : BitVec 16) (st : Byte) (s : State) :
    (s.setResults h t th hh st).op = s.op := rfl
@[simp] theorem setResults_bound (h t : BitVec 20) (th hh : BitVec 16) (st : Byte) (s : State) :
    (s.setResults h t th hh st).bound = s.bound := rfl
@[simp] theorem setResults_busSpeed (h t : BitVec 20) (th hh : BitVec 16) (st : Byte) (s : State) :
    (s.setResults h t th hh st).busSpeed = s.busSpeed := rfl
@[simp] theorem setResults_rom (h t : BitVec 20) (th hh : BitVec 16) (st : Byte) (s : State) :
    (s.setResults h t th hh st).rom = s.rom := rfl
@[simp] theorem setResults_raw (h t : BitVec 20) (th hh : BitVec 16) (st : Byte) (s : State) :
    (s.setResults h t th hh st).raw = s.raw := rfl
@[simp] theorem setResults_hraw (h t : BitVec 20) (th hh : BitVec 16) (st : Byte) (s : State) :
    (s.setResults h t th hh st).hraw = h := rfl
@[simp] theorem setResults_traw (h t : BitVec 20) (th hh : BitVec 16) (st : Byte) (s : State) :
    (s.setResults h t th hh st).traw = t := rfl
@[simp] theorem setResults_temp100 (h t : BitVec 20) (th hh : BitVec 16) (st : Byte) (s : State) :
    (s.setResults h t th hh st).temp100 = th := rfl
@[simp] theorem setResults_humid100 (h t : BitVec 20) (th hh : BitVec 16) (st : Byte) (s : State) :
    (s.setResults h t th hh st).humid100 = hh := rfl
@[simp] theorem setResults_status (h t : BitVec 20) (th hh : BitVec 16) (st : Byte) (s : State) :
    (s.setResults h t th hh st).status = st := rfl
@[simp] theorem setResults_str (h t : BitVec 20) (th hh : BitVec 16) (st : Byte) (s : State) :
    (s.setResults h t th hh st).str = s.str := rfl
@[simp] theorem setResults_strlen (h t : BitVec 20) (th hh : BitVec 16) (st : Byte) (s : State) :
    (s.setResults h t th hh st).strlen = s.strlen := rfl
@[simp] theorem setResults_rawWritten (h t : BitVec 20) (th hh : BitVec 16) (st : Byte) (s : State) :
    (s.setResults h t th hh st).rawWritten = s.rawWritten := rfl
@[simp] theorem setResults_convWritten (h t : BitVec 20) (th hh : BitVec 16) (st : Byte) (s : State) :
    (s.setResults h t th hh st).convWritten = true := rfl
@[simp] theorem setResults_strWritten (h t : BitVec 20) (th hh : BitVec 16) (st : Byte) (s : State) :
    (s.setResults h t th hh st).strWritten = s.strWritten := rfl
@[simp] theorem setResults_tr (h t : BitVec 20) (th hh : BitVec 16) (st : Byte) (s : State) :
    (s.setResults h t th hh st).tr = s.tr := rfl
@[simp] theorem setResults_ev (h t : BitVec 20) (th hh : BitVec 16) (st : Byte) (s : State) :
    (s.setResults h t th hh st).ev = s.ev := rfl
@[simp] theorem setResults_hostq (h t : BitVec 20) (th hh : BitVec 16) (st : Byte) (s : State) :
    (s.setResults h t th hh st).hostq = s.hostq := rfl
@[simp] theorem setResults_wire (h t : BitVec 20) (th hh : BitVec 16) (st : Byte) (s : State) :
    (s.setResults h t th hh st).wire = s.wire := rfl
@[simp] theorem setResults_env (h t : BitVec 20) (th hh : BitVec 16) (st : Byte) (s : State) :
    (s.setResults h t th hh st).env = s.env := rfl
@[simp] theorem setResults_hangIn (h t : BitVec 20) (th hh : BitVec 16) (st : Byte) (s : State) :
    (s.setResults h t th hh st).hangIn = s.hangIn := rfl
@[simp] theorem setResults_waiting (h t : BitVec 20) (th hh : BitVec 16) (st : Byte) (s : State) :
    (s.setResults h t th hh st).waiting = s.waiting := rfl
@[simp] theorem setResults_draws (h t : BitVec 20) (th hh : BitVec 16) (st : Byte) (s : State) :
    (s.setResults h t th hh st).draws = s.draws := rfl
@[simp] theorem setResults_frees (h t : BitVec 20) (th hh : BitVec 16) (st : Byte) (s : State) :
    (s.setResults h t th hh st).frees = s.frees := rfl

/-! ### finish -/

@[simp] theorem finish_upc (s : State) : s.finish.upc = s.upc := rfl
@[simp] theorem finish_active (s : State) : s.finish.active = false := rfl
@[simp] theorem finish_op (s : State) : s.finish.op = s.op := rfl
@[simp] theorem finish_bound (s : State) : s.finish.bound = s.bound := rfl
@[simp] theorem finish_busSpeed (s : State) : s.finish.busSpeed = s.busSpeed := rfl
@[simp] theorem finish_rom (s : State) : s.finish.rom = s.rom := rfl
@[simp] theorem finish_raw (s : State) : s.finish.raw = s.raw := rfl
@[simp] theorem finish_hraw (s : State) : s.finish.hraw = s.hraw := rfl
@[simp] theorem finish_traw (s : State) : s.finish.traw = s.traw := rfl
@[simp] theorem finish_temp100 (s : State) : s.finish.temp100 = s.temp100 := rfl
@[simp] theorem finish_humid100 (s : State) : s.finish.humid100 = s.humid100 := rfl
@[simp] theorem finish_status (s : State) : s.finish.status = s.status := rfl
@[simp] theorem finish_str (s : State) : s.finish.str = s.str := rfl
@[simp] theorem finish_strlen (s : State) : s.finish.strlen = s.strlen := rfl
@[simp] theorem finish_rawWritten (s : State) : s.finish.rawWritten = s.rawWritten := rfl
@[simp] theorem finish_convWritten (s : State) : s.finish.convWritten = s.convWritten := rfl
@[simp] theorem finish_strWritten (s : State) : s.finish.strWritten = s.strWritten := rfl
@[simp] theorem finish_tr (s : State) : s.finish.tr = s.tr := rfl
@[simp] theorem finish_ev (s : State) : s.finish.ev = s.ev := rfl
@[simp] theorem finish_hostq (s : State) : s.finish.hostq = s.hostq := rfl
@[simp] theorem finish_wire (s : State) : s.finish.wire = s.wire := rfl
@[simp] theorem finish_env (s : State) : s.finish.env = s.env := rfl
@[simp] theorem finish_hangIn (s : State) : s.finish.hangIn = s.hangIn := rfl
@[simp] theorem finish_waiting (s : State) : s.finish.waiting = s.waiting := rfl
@[simp] theorem finish_draws (s : State) : s.finish.draws = s.draws := rfl
@[simp] theorem finish_frees (s : State) : s.finish.frees = s.frees := rfl

/-! ### writeString -/

@[simp] theorem writeString_upc (cs : List Byte) (s : State) : (s.writeString cs).upc = s.upc := rfl
@[simp] theorem writeString_active (cs : List Byte) (s : State) : (s.writeString cs).active = s.active := rfl
@[simp] theorem writeString_op (cs : List Byte) (s : State) : (s.writeString cs).op = s.op := rfl
@[simp] theorem writeString_bound (cs : List Byte) (s : State) : (s.writeString cs).bound = s.bound := rfl
@[simp] theorem writeString_busSpeed (cs : List Byte) (s : State) : (s.writeString cs).busSpeed = s.busSpeed := rfl
@[simp] theorem writeString_rom (cs : List Byte) (s : State) : (s.writeString cs).rom = s.rom := rfl
@[simp] theorem writeString_raw (cs : List Byte) (s : State) : (s.writeString cs).raw = s.raw := rfl
@[simp] theorem writeString_hraw (cs : List Byte) (s : State) : (s.writeString cs).hraw = s.hraw := rfl
@[simp] theorem writeString_traw (cs : List Byte) (s : State) : (s.writeString cs).traw = s.traw := rfl
@[simp] theorem writeString_temp100 (cs : List Byte) (s : State) : (s.writeString cs).temp100 = s.temp100 := rfl
@[simp] theorem writeString_humid100 (cs : List Byte) (s : State) : (s.writeString cs).humid100 = s.humid100 := rfl
@[simp] theorem writeString_status (cs : List Byte) (s : State) : (s.writeString cs).status = s.status := rfl
@[simp] theorem writeString_str (cs : List Byte) (s : State) :
    (s.writeString cs).str = Vector.ofFn fun i : Fin 7 => ((cs ++ [0x00#8])[i.val]?).getD (Config.freeByte (s.frees + i.val)) := rfl
@[simp] theorem writeString_strlen (cs : List Byte) (s : State) :
    (s.writeString cs).strlen = BitVec.ofNat 3 cs.length := rfl
@[simp] theorem writeString_rawWritten (cs : List Byte) (s : State) :
    (s.writeString cs).rawWritten = s.rawWritten := rfl
@[simp] theorem writeString_convWritten (cs : List Byte) (s : State) :
    (s.writeString cs).convWritten = s.convWritten := rfl
@[simp] theorem writeString_strWritten (cs : List Byte) (s : State) : (s.writeString cs).strWritten = true := rfl
@[simp] theorem writeString_tr (cs : List Byte) (s : State) : (s.writeString cs).tr = s.tr := rfl
@[simp] theorem writeString_ev (cs : List Byte) (s : State) : (s.writeString cs).ev = s.ev := rfl
@[simp] theorem writeString_hostq (cs : List Byte) (s : State) : (s.writeString cs).hostq = s.hostq := rfl
@[simp] theorem writeString_wire (cs : List Byte) (s : State) : (s.writeString cs).wire = s.wire := rfl
@[simp] theorem writeString_env (cs : List Byte) (s : State) : (s.writeString cs).env = s.env := rfl
@[simp] theorem writeString_hangIn (cs : List Byte) (s : State) : (s.writeString cs).hangIn = s.hangIn := rfl
@[simp] theorem writeString_waiting (cs : List Byte) (s : State) : (s.writeString cs).waiting = s.waiting := rfl
@[simp] theorem writeString_draws (cs : List Byte) (s : State) : (s.writeString cs).draws = s.draws := rfl
@[simp] theorem writeString_frees (cs : List Byte) (s : State) : (s.writeString cs).frees = s.frees + 7 := rfl

end Sys2Proof.Machine.State
end

