-- ==== Sys2Proof/Laws/Ops.lean ====
section
/-! SUPPORT. For each shared operation, once, everything it can do: the lemmas to cite instead of unfolding it. -/

namespace Sys2Proof.Machine

/-! ### andThen -/

@[simp] theorem andThen_next (s : State) (f : State → Out) : andThen (.next s) f = f s := rfl
@[simp] theorem andThen_fault (r : Fault) (f : State → Out) : andThen (.fault r) f = .fault r := rfl
@[simp] theorem andThen_refused (r : Refusal) (f : State → Out) : andThen (.refused r) f = .refused r := rfl

theorem andThen_eq_next {o : Out} {f : State → Out} {t : State} (h : andThen o f = .next t) :
    ∃ s, o = .next s ∧ f s = .next t := by
  cases o with
  | next s => exact ⟨s, rfl, h⟩
  | fault r => cases h
  | refused r => cases h

/-! ### issue -/

/-- All that issuing a primitive does: the event, whether the block waits for ever, one return fewer to come. -/
theorem issue_eq (e : Event) (s : State) :
    issue e s =
      { s with
        ev := s.ev ++ [e]
        waiting := s.waiting || decide (s.hangIn = some 0)
        hangIn := s.hangIn.map fun n => n - 1 } := by
  unfold issue
  split <;> cases s <;> simp_all

theorem issue_of_returns {e : Event} {s : State} (h : s.hangIn ≠ some 0) :
    issue e s = { s with ev := s.ev ++ [e], hangIn := s.hangIn.map fun n => n - 1 } := by
  rw [issue_eq]
  simp [h]

theorem issue_of_none {e : Event} {s : State} (h : s.hangIn = none) : issue e s = { s with ev := s.ev ++ [e] } := by
  simp [issue, h]

theorem issue_of_hangs {e : Event} {s : State} (h : s.hangIn = some 0) :
    issue e s = { s with ev := s.ev ++ [e], waiting := true } := by
  simp [issue, h]

/-! ### onReturn and enabled -/

theorem onReturn_waiting {f : State → Out} {s : State} (h : s.waiting = true) : onReturn f s = .next s := by
  simp [onReturn, h]

theorem onReturn_of_returned {f : State → Out} {s : State} (h : s.waiting = false) : onReturn f s = f s := by
  simp [onReturn, h]

theorem enabled_idle {f : State → Out} {s : State} (h : s.active = false) :
    enabled f s = .refused .sequencerIdle := by
  simp [enabled, h]

theorem enabled_waiting {f : State → Out} {s : State} (h : s.active = true) (hw : s.waiting = true) :
    enabled f s = .fault .stuck := by
  simp [enabled, h, hw]

theorem enabled_run {f : State → Out} {s : State} (h : s.active = true) (hw : s.waiting = false) :
    enabled f s = f s := by
  simp [enabled, h, hw]

theorem enabled_eq_next {f : State → Out} {s t : State} (h : enabled f s = .next t) :
    s.active = true ∧ s.waiting = false ∧ f s = .next t := by
  unfold enabled at h
  split at h
  · split at h
    · cases h
    · rename_i ha hw
      exact ⟨ha, by simpa using hw, h⟩
  · cases h

/-! ### microStep -/

theorem microStep_idle {e : Event} {u : State → State} {s : State} (h : s.active = false) :
    microStep e u s = .refused .sequencerIdle := enabled_idle h

theorem microStep_stuck {e : Event} {u : State → State} {s : State} (h : s.active = true) (hw : s.waiting = true) :
    microStep e u s = .fault .stuck := enabled_waiting h hw

theorem microStep_hangs {e : Event} {u : State → State} {s : State} (h : s.active = true) (hw : s.waiting = false)
    (hs : s.hangIn = some 0) : microStep e u s = .next { s with ev := s.ev ++ [e], waiting := true } := by
  simp [microStep, enabled_run h hw, issue_of_hangs hs, onReturn]

theorem microStep_next {e : Event} {u : State → State} {s : State} (h : s.active = true) (hw : s.waiting = false)
    (hs : s.hangIn ≠ some 0) :
    microStep e u s =
      .next (u { s with ev := s.ev ++ [e], hangIn := s.hangIn.map fun n => n - 1 }).advance := by
  simp [microStep, enabled_run h hw, issue_of_returns hs, onReturn, hw]

theorem microStep_next_of_none {e : Event} {u : State → State} {s : State} (h : s.active = true)
    (hw : s.waiting = false) (hs : s.hangIn = none) :
    microStep e u s = .next (u { s with ev := s.ev ++ [e] }).advance := by
  simp [microStep, enabled_run h hw, issue_of_none hs, onReturn, hw]

/-- All a primitive can do: what its rule says, where the collaborator returns; the event and a wait, where it never does;
a fault in a block that waits already; a refusal when idle. -/
theorem microStep_cases (e : Event) (u : State → State) (s : State) :
    (s.active = true ∧ s.waiting = false ∧ s.hangIn ≠ some 0 ∧
      microStep e u s =
        .next (u { s with ev := s.ev ++ [e], hangIn := s.hangIn.map fun n => n - 1 }).advance) ∨
    (s.active = true ∧ s.waiting = false ∧ s.hangIn = some 0 ∧
      microStep e u s = .next { s with ev := s.ev ++ [e], waiting := true }) ∨
    (s.active = true ∧ s.waiting = true ∧ microStep e u s = .fault .stuck) ∨
    (s.active = false ∧ microStep e u s = .refused .sequencerIdle) := by
  rcases Bool.eq_false_or_eq_true s.active with ha | ha
  · rcases Bool.eq_false_or_eq_true s.waiting with hw | hw
    · exact .inr (.inr (.inl ⟨ha, hw, microStep_stuck ha hw⟩))
    · by_cases hh : s.hangIn = some 0
      · exact .inr (.inl ⟨ha, hw, hh, microStep_hangs ha hw hh⟩)
      · exact .inl ⟨ha, hw, hh, microStep_next ha hw hh⟩
  · exact .inr (.inr (.inr ⟨ha, microStep_idle ha⟩))

theorem microStep_eq_next {e : Event} {u : State → State} {s t : State} (h : microStep e u s = .next t) :
    s.active = true ∧ s.waiting = false ∧
      ((s.hangIn ≠ some 0 ∧
          t = (u { s with ev := s.ev ++ [e], hangIn := s.hangIn.map fun n => n - 1 }).advance) ∨
        (s.hangIn = some 0 ∧ t = { s with ev := s.ev ++ [e], waiting := true })) := by
  rcases microStep_cases e u s with ⟨ha, hw, hh, hm⟩ | ⟨ha, hw, hh, hm⟩ | ⟨_, _, hm⟩ | ⟨_, hm⟩
  · rw [hm] at h
    exact ⟨ha, hw, .inl ⟨hh, (Host.Outcome.next.inj h).symm⟩⟩
  · rw [hm] at h
    exact ⟨ha, hw, .inr ⟨hh, (Host.Outcome.next.inj h).symm⟩⟩
  · rw [hm] at h
    cases h
  · rw [hm] at h
    cases h

theorem microStep_eq_fault {e : Event} {u : State → State} {s : State} {f : Fault} (h : microStep e u s = .fault f) :
    f = .stuck ∧ s.active = true ∧ s.waiting = true := by
  rcases microStep_cases e u s with ⟨_, _, _, hm⟩ | ⟨_, _, _, hm⟩ | ⟨ha, hw, hm⟩ | ⟨_, hm⟩
  · rw [hm] at h
    cases h
  · rw [hm] at h
    cases h
  · rw [hm] at h
    exact ⟨(Host.Outcome.fault.inj h).symm, ha, hw⟩
  · rw [hm] at h
    cases h

/-! ### Draws and transfers -/

theorem drawnByte_nil {s : State} (h : s.env = []) : drawnByte s = Config.drawnByte s.draws := by
  simp [drawnByte, h]

theorem drawnByte_cons {s : State} {b : Byte} {bs : List Byte} (h : s.env = b :: bs) : drawnByte s = b := by
  simp [drawnByte, h]

@[simp] theorem sendBytes_nil (s : State) : sendBytes [] s = .next s := rfl
@[simp] theorem sendBytes_cons (b : Byte) (bs : List Byte) (s : State) :
    sendBytes (b :: bs) s = andThen (sendByte b s) (onReturn (sendBytes bs)) := rfl
@[simp] theorem receiveBytes_nil (s : State) : receiveBytes [] s = .next s := rfl
@[simp] theorem receiveBytes_cons (i : Fin 6) (is : List (Fin 6)) (s : State) :
    receiveBytes (i :: is) s = andThen (receiveByte i s) (onReturn (receiveBytes is)) := rfl

theorem rawIndex_of_lt {i : BitVec 3} (h : i.toNat < 6) : rawIndex i = some ⟨i.toNat, h⟩ := by
  simp [rawIndex, h]

theorem rawIndex_of_ge {i : BitVec 3} (h : 6 ≤ i.toNat) : rawIndex i = none := by
  simp [rawIndex]
  omega

/-! ### Counters -/

theorem nextUpc_of_ne {u : BitVec 5} (h : u ≠ 31#5) : nextUpc u = u + 1#5 := by simp [nextUpc, h]
theorem nextXfer_of_ne {x : BitVec 8} (h : x ≠ 255#8) : nextXfer x = x + 1#8 := by simp [nextXfer, h]

/-! ### Acceptance -/

theorem acceptMeasurement_eq_next {o : BitVec 2} {s t : State} (h : acceptMeasurement o s = .next t) :
    s.active = false ∧ s.bound = true ∧ t = s.dispatch o readEntry := by
  unfold acceptMeasurement at h
  split at h
  · cases h
  · split at h
    · rename_i ha hb
      exact ⟨by simpa using ha, hb, (Host.Outcome.next.inj h).symm⟩
    · cases h

/-! ### END -/

/-- All that END can do with a next state. -/
theorem execEnd_eq_next {s t : State} (h : execEnd s = .next t) :
    s.active = true ∧ s.waiting = false ∧ t = if s.op = opGetth then (convert s).finish else s.finish := by
  unfold execEnd at h
  obtain ⟨ha, hw, h⟩ := enabled_eq_next h
  exact ⟨ha, hw, (Host.Outcome.next.inj h).symm⟩

theorem execEnd_run {s : State} (h : s.active = true) (hw : s.waiting = false) :
    execEnd s = .next (if s.op = opGetth then (convert s).finish else s.finish) := by
  rw [execEnd, enabled_run h hw]

/-! ### The spaces -/

/-- R60: an index outside its space does not exist, and every other one does. -/
theorem memRead_eq_none (sp : Space) (a : Nat) (s : State) : memRead sp a s = none ↔ sp.size ≤ a := by
  cases sp <;> simp [memRead, Space.size]

theorem memRead_rom_upc (s : State) : memRead .rom s.upc.toNat s = some (romWord s) := by
  have h : s.upc.toNat < 32 := s.upc.isLt
  simp [memRead, romWord, h]

/-! ### fetch and step -/

theorem fetch_wire {s : State} {f : WireFrame} {rest : List WireFrame} (h : s.wire = f :: rest) :
    fetch s = some (.wire f, { s with wire := rest }) := by
  simp [fetch, h]

theorem fetch_active {s : State} (hw : s.wire = []) (ha : s.active = true) : fetch s = some (.u24 (romWord s), s) := by
  simp [fetch, hw, ha]

theorem fetch_host {s : State} {w : Word24} {rest : List Word24} (hw : s.wire = []) (ha : s.active = false)
    (hq : s.hostq = w :: rest) : fetch s = some (.h24 w, { s with hostq := rest }) := by
  simp [fetch, hw, ha, hq]

theorem fetch_idle {s : State} (hw : s.wire = []) (ha : s.active = false) (hq : s.hostq = []) : fetch s = none := by
  simp [fetch, hw, ha, hq]

/-- R130, R144: a waiting block is stuck. -/
theorem step_waiting {s : State} (h : s.waiting = true) : step s = .fault .stuck := by
  simp [step, h]

theorem step_of_fetch {s s1 : State} {w : Encoded} {i : Instr} (hn : s.waiting = false) (hf : fetch s = some (w, s1))
    (hd : decode w = .ok i) : step s = exec i s1 := by
  simp [step, hn, hf, hd]

/-- Everything a step can be: stuck, idle, the meaning of the fetched instruction, or a refusal of a reserved word. -/
theorem step_cases (s : State) :
    (s.waiting = true ∧ step s = .fault .stuck) ∨
    (s.waiting = false ∧ fetch s = none ∧ step s = .next s) ∨
    (s.waiting = false ∧ ∃ w s1 i, fetch s = some (w, s1) ∧ decode w = .ok i ∧ step s = exec i s1) ∨
    (s.waiting = false ∧
      ∃ w s1 e, fetch s = some (w, s1) ∧ decode w = .error e ∧ step s = .refused (.reserved e)) := by
  rcases Bool.eq_false_or_eq_true s.waiting with hn | hn
  · exact .inl ⟨hn, step_waiting hn⟩
  · rcases hf : fetch s with _ | ⟨w, s1⟩
    · exact .inr (.inl ⟨hn, rfl, by simp [step, hn, hf]⟩)
    · rcases hd : decode w with e | i
      · exact .inr (.inr (.inr ⟨hn, w, s1, e, rfl, hd, by simp [step, hn, hf, hd]⟩))
      · exact .inr (.inr (.inl ⟨hn, w, s1, i, rfl, hd, step_of_fetch hn hf hd⟩))

end Sys2Proof.Machine
end

