-- ==== Sys2Proof/Laws/Words.lean ====
section
/-! SUPPORT. The encoded words as numbers, and the fields of a word as quotients and remainders. -/

namespace Sys2Proof.Laws

/-- A field shifted above another one adds to it. -/
theorem shift_or_toNat {n : Nat} (a b : BitVec n) (k : Nat) (ha : a.toNat * 2 ^ k < 2 ^ n) (hb : b.toNat < 2 ^ k) :
    (a <<< k ||| b).toNat = a.toNat * 2 ^ k + b.toNat := by
  rw [BitVec.toNat_or, BitVec.toNat_shiftLeft, Nat.shiftLeft_eq, Nat.mod_eq_of_lt ha, ← Nat.shiftLeft_eq,
    ← Nat.shiftLeft_add_eq_or_of_lt hb]

theorem hostWord_toNat (hop : BitVec 8) (harg : BitVec 16) :
    (hostWord hop harg).toNat = hop.toNat * 65536 + harg.toNat := by
  have h1 := hop.isLt
  have h2 := harg.isLt
  rw [hostWord, shift_or_toNat] <;> simp only [BitVec.toNat_setWidth] <;> omega

theorem microWord_toNat (kind : BitVec 4) (uarg : BitVec 20) :
    (microWord kind uarg).toNat = kind.toNat * 1048576 + uarg.toNat := by
  have h1 := kind.isLt
  have h2 := uarg.isLt
  rw [microWord, shift_or_toNat] <;> simp only [BitVec.toNat_setWidth] <;> omega

theorem respWord_toNat (s : Byte) (h t : BitVec 20) :
    (respWord s h t).toNat = s.toNat * 2 ^ 40 + h.toNat * 2 ^ 20 + t.toNat := by
  have h1 := s.isLt
  have h2 := h.isLt
  have h3 := t.isLt
  rw [respWord, BitVec.or_assoc, shift_or_toNat, shift_or_toNat] <;> (try rw [shift_or_toNat]) <;>
    simp only [BitVec.toNat_setWidth] <;> omega

theorem hopField_toNat (w : Word24) : (hopField w).toNat = w.toNat / 65536 := by
  have h := w.isLt
  rw [hopField, BitVec.extractLsb'_toNat, Nat.shiftRight_eq_div_pow]
  omega

theorem hargField_toNat (w : Word24) : (hargField w).toNat = w.toNat % 65536 := by
  rw [hargField, BitVec.extractLsb'_toNat, Nat.shiftRight_eq_div_pow]
  omega

theorem kindField_toNat (w : Word24) : (kindField w).toNat = w.toNat / 1048576 := by
  have h := w.isLt
  rw [kindField, BitVec.extractLsb'_toNat, Nat.shiftRight_eq_div_pow]
  omega

theorem uargField_toNat (w : Word24) : (uargField w).toNat = w.toNat % 1048576 := by
  rw [uargField, BitVec.extractLsb'_toNat, Nat.shiftRight_eq_div_pow]
  omega

/-- R97: a word is made of its two fields, kind and operand. -/
theorem kindField_microWord (k : BitVec 4) (u : BitVec 20) : kindField (microWord k u) = k := by
  apply BitVec.eq_of_toNat_eq
  have := u.isLt
  rw [kindField_toNat, microWord_toNat]
  omega

theorem uargField_microWord (k : BitVec 4) (u : BitVec 20) : uargField (microWord k u) = u := by
  apply BitVec.eq_of_toNat_eq
  have := u.isLt
  rw [uargField_toNat, microWord_toNat]
  omega

theorem microWord_fields (w : Word24) : microWord (kindField w) (uargField w) = w := by
  apply BitVec.eq_of_toNat_eq
  rw [microWord_toNat, kindField_toNat, uargField_toNat]
  omega

/-- R91: a host word is made of its two fields, opcode and argument. -/
theorem hopField_hostWord (o : BitVec 8) (a : BitVec 16) : hopField (hostWord o a) = o := by
  apply BitVec.eq_of_toNat_eq
  have := a.isLt
  rw [hopField_toNat, hostWord_toNat]
  omega

theorem hargField_hostWord (o : BitVec 8) (a : BitVec 16) : hargField (hostWord o a) = a := by
  apply BitVec.eq_of_toNat_eq
  have := a.isLt
  rw [hargField_toNat, hostWord_toNat]
  omega

end Sys2Proof.Laws
end

