-- ==== Sys2Proof/Laws/PerInstr.lean ====
section
/-! SUPPORT. Statements made per instruction: one lemma per constructor of Instr. -/

namespace Sys2Proof.Laws

/-- The row of spec/opcode_table.json an instruction belongs to: the lowest fixed bit, the value of the fixed bits from
there up to the top ("fixed"), and the width. -/
def tableRow : Instr → Nat × Nat × Nat
  | .init _ => (16, 1, 24)
  | .read => (16, 2, 24)
  | .getth => (16, 3, 24)
  | .fmt _ => (16, 4, 24)
  | .saddr _ => (7, 8192, 24)
  | .scnt _ => (8, 8192, 24)
  | .srd => (0, 3145728, 24)
  | .swr => (0, 4194304, 24)
  | .start => (0, 5242880, 24)
  | .stop => (0, 6291456, 24)
  | .wb _ => (8, 28672, 24)
  | .rb _ => (3, 1048576, 24)
  | .dly _ => (20, 9, 24)
  | .endOp => (0, 10485760, 24)
  | .devAddr => (0, 56, 7)
  | .calinit => (0, 14747648, 24)
  | .trigger => (0, 11285248, 24)
  | .resp _ _ _ => (48, 0, 48)
  | .status _ => (8, 0, 8)

/-- The encoded word of the instruction shows the fixed bits of its row of the opcode table and has the row's width. -/
def EncodesToRow.Statement (i : Instr) : Prop :=
  (encode i).bits / 2 ^ (tableRow i).1 = (tableRow i).2.1 ∧ (encode i).bits < 2 ^ (tableRow i).2.2

/-- The word of a host operation shows its opcode above bit 16. -/
theorem hostWord_row (hop : BitVec 8) (harg : BitVec 16) :
    (hostWord hop harg).toNat / 2 ^ 16 = hop.toNat ∧ (hostWord hop harg).toNat < 2 ^ 24 := by
  have := harg.isLt
  exact ⟨by rw [hostWord_toNat]; omega, BitVec.isLt _⟩

/-- The word of a micro-operation whose operand has `n` bits shows its kind and zeros above bit `n`. -/
theorem microWord_row {n : Nat} (kind : BitVec 4) (x : BitVec n) (hn : n ≤ 20) :
    (microWord kind (x.setWidth 20)).toNat / 2 ^ n = kind.toNat * 2 ^ (20 - n) ∧
      (microWord kind (x.setWidth 20)).toNat < 2 ^ 24 := by
  refine ⟨?_, BitVec.isLt _⟩
  have hx := x.isLt
  have hp : 2 ^ n ≤ 2 ^ 20 := Nat.pow_le_pow_right (by omega) hn
  have h20 : (1048576 : Nat) = 2 ^ (20 - n) * 2 ^ n := by
    rw [← Nat.pow_add, Nat.sub_add_cancel hn]
  rw [microWord_toNat, BitVec.toNat_setWidth, Nat.mod_eq_of_lt (by omega), h20, ← Nat.mul_assoc, Nat.add_comm,
    Nat.add_mul_div_right _ _ (Nat.two_pow_pos n), Nat.div_eq_of_lt hx, Nat.zero_add]

theorem EncodesToRow.init (b : BitVec 16) : EncodesToRow.Statement (.init b) := hostWord_row 0x01#8 b
theorem EncodesToRow.read : EncodesToRow.Statement .read := hostWord_row 0x02#8 0#16
theorem EncodesToRow.getth : EncodesToRow.Statement .getth := hostWord_row 0x03#8 0#16
theorem EncodesToRow.fmt (v : BitVec 16) : EncodesToRow.Statement (.fmt v) := hostWord_row 0x04#8 v
theorem EncodesToRow.saddr (a : BitVec 7) : EncodesToRow.Statement (.saddr a) := microWord_row 0x1#4 a (by decide)
theorem EncodesToRow.scnt (n : BitVec 8) : EncodesToRow.Statement (.scnt n) := microWord_row 0x2#4 n (by decide)
theorem EncodesToRow.srd : EncodesToRow.Statement .srd := by unfold EncodesToRow.Statement; decide
theorem EncodesToRow.swr : EncodesToRow.Statement .swr := by unfold EncodesToRow.Statement; decide
theorem EncodesToRow.start : EncodesToRow.Statement .start := by unfold EncodesToRow.Statement; decide
theorem EncodesToRow.stop : EncodesToRow.Statement .stop := by unfold EncodesToRow.Statement; decide
theorem EncodesToRow.wb (b : Byte) : EncodesToRow.Statement (.wb b) := microWord_row 0x7#4 b (by decide)
theorem EncodesToRow.rb (i : BitVec 3) : EncodesToRow.Statement (.rb i) := microWord_row 0x8#4 i (by decide)
theorem EncodesToRow.dly (n : BitVec 20) : EncodesToRow.Statement (.dly n) := by
  have := microWord_row 0x9#4 n (by decide)
  rwa [BitVec.setWidth_eq] at this
theorem EncodesToRow.endOp : EncodesToRow.Statement .endOp := by unfold EncodesToRow.Statement; decide
theorem EncodesToRow.devAddr : EncodesToRow.Statement .devAddr := by unfold EncodesToRow.Statement; decide
theorem EncodesToRow.calinit : EncodesToRow.Statement .calinit := by unfold EncodesToRow.Statement; decide
theorem EncodesToRow.trigger : EncodesToRow.Statement .trigger := by unfold EncodesToRow.Statement; decide
theorem EncodesToRow.resp (s : Byte) (h t : BitVec 20) : EncodesToRow.Statement (.resp s h t) :=
  ⟨Nat.div_eq_of_lt (BitVec.isLt _), BitVec.isLt _⟩
theorem EncodesToRow.status (b : Byte) : EncodesToRow.Statement (.status b) :=
  ⟨Nat.div_eq_of_lt (BitVec.isLt _), BitVec.isLt _⟩

end Sys2Proof.Laws
end

