-- ==== Sys2Proof/Laws/Rom.lean ====
section
/-! SUPPORT. What stands at each index of the ROM, and the step of a sequencer that stands there. -/

namespace Sys2Proof.Machine

/-- The micro-operation at a ROM index, END above the programs. -/
def programAt (d : Delays) (n : Nat) : Instr := ((initProgram d ++ readProgram d)[n]?).getD .endOp

theorem decode_dlyWord (t : BitVec 20) : decode (.u24 (microWord 0x9#4 t)) = .ok (.dly t) := by
  simp [decode, decodeMicro, Laws.kindField_microWord, Laws.uargField_microWord, decodeKind]

theorem decode_of_eq {w v : Word24} {i : Instr} (hw : w = v) (hv : decode (.u24 v) = .ok i) :
    decode (.u24 w) = .ok i := hw ▸ hv

/-- R100: the ROM word at an index of the two programs decodes to the micro-operation that stands there. -/
theorem decode_romOf (d : Delays) : ∀ n : Nat, (h : n ≤ 30) →
    decode (.u24 ((romOf d)[n]'(by omega))) = .ok (programAt d n)
  | 0, _ => decode_of_eq (v := 0x100038#24) rfl rfl
  | 1, _ => decode_of_eq (v := 0x200003#24) rfl rfl
  | 2, _ => decode_of_eq (v := 0x400000#24) rfl rfl
  | 3, _ => decode_of_eq (v := 0x500000#24) rfl rfl
  | 4, _ => decode_of_eq (v := 0x7000E1#24) rfl rfl
  | 5, _ => decode_of_eq (v := 0x700008#24) rfl rfl
  | 6, _ => decode_of_eq (v := 0x700000#24) rfl rfl
  | 7, _ => decode_of_eq (v := 0x600000#24) rfl rfl
  | 8, _ => decode_dlyWord d.tInit
  | 9, _ => decode_of_eq (v := 0xA00000#24) rfl rfl
  | 10, _ => decode_of_eq (v := 0x200003#24) rfl rfl
  | 11, _ => decode_of_eq (v := 0x400000#24) rfl rfl
  | 12, _ => decode_of_eq (v := 0x500000#24) rfl rfl
  | 13, _ => decode_of_eq (v := 0x7000AC#24) rfl rfl
  | 14, _ => decode_of_eq (v := 0x700033#24) rfl rfl
  | 15, _ => decode_of_eq (v := 0x700000#24) rfl rfl
  | 16, _ => decode_of_eq (v := 0x600000#24) rfl rfl
  | 17, _ => decode_dlyWord d.tMeas
  | 18, _ => decode_of_eq (v := 0x200006#24) rfl rfl
  | 19, _ => decode_of_eq (v := 0x300000#24) rfl rfl
  | 20, _ => decode_of_eq (v := 0x500000#24) rfl rfl
  | 21, _ => decode_of_eq (v := 0x800000#24) rfl rfl
  | 22, _ => decode_of_eq (v := 0x800001#24) rfl rfl
  | 23, _ => decode_of_eq (v := 0x800002#24) rfl rfl
  | 24, _ => decode_of_eq (v := 0x800003#24) rfl rfl
  | 25, _ => decode_of_eq (v := 0x800004#24) rfl rfl
  | 26, _ => decode_of_eq (v := 0x800005#24) rfl rfl
  | 27, _ => decode_of_eq (v := 0x600000#24) rfl rfl
  | 28, _ => decode_of_eq (v := 0x400000#24) rfl rfl
  | 29, _ => decode_dlyWord d.tPost
  | 30, _ => decode_of_eq (v := 0xA00000#24) rfl rfl
  | n + 31, h => absurd h (by omega)

/-- R130: a running sequencer over the fixed ROM, no primitive of which is outstanding, runs the micro-operation at UPC. -/
theorem step_programAt {d : Delays} {s : State} (hr : s.rom = romOf d) (hw : s.wire = []) (ha : s.active = true)
    (hn : s.waiting = false) (hu : s.upc.toNat ≤ 30) : step s = exec (programAt d s.upc.toNat) s := by
  refine step_of_fetch hn (fetch_active hw ha) ?_
  simp only [romWord, hr]
  exact decode_romOf d _ hu

end Sys2Proof.Machine
end

