-- ==== Sys2Proof/Tests/Slice0.lean ====
section
/-! SUPPORT. Tests of single words and single steps, with expected results from 95_test_vectors.md (or worked by hand
from the rule named), and, for every statement that has hypotheses, a state and operands that meet them together. -/

namespace Sys2Proof.Tests

open Sys2Proof Sys2Proof.Machine

/-! ### Helpers -/

/-- One field of a next state, none for a stop. -/
def got {α : Type} (f : State → α) : Out → Option α
  | .next s => some (f s)
  | .fault _ => none
  | .refused _ => none

/-- Why a meaning was refused, none otherwise. -/
def why : Out → Option Refusal
  | .next _ => none
  | .fault _ => none
  | .refused r => some r

/-- Whether an outcome is the fault. -/
def isStuck : Out → Bool
  | .next _ => false
  | .fault _ => true
  | .refused _ => false

/-- What a decoder answered, none where it refused. -/
def decoded (e : Encoded) : Option Instr := (decode e).toOption

/-- A block that is idle after INIT, with these words presented. -/
def ready (words : List Word24) : State := { State.reset with bound := true, hostq := words }

/-- A running block: operation, micro-program index and transport configuration (address 0x38). -/
def at_ (op : BitVec 2) (upc : BitVec 5) (n : BitVec 8) (m : Direction) (isOpen : Bool) (xfer : BitVec 8) : State :=
  { State.reset with
    active := true
    bound := true
    op := op
    upc := upc
    tr := { addr := 0x38#7, nbytes := n, mode := m, isOpen := isOpen, xfer := xfer } }

/-- A running block at ROM word 0. -/
def atZero : State := at_ opInit 0 0 .write false 0

/-- A RAW register file as one of 2.5's rows, byte 0 first. -/
def withRaw (bs : Vector Byte 6) : State :=
  { at_ opGetth 30 6 .write false 6 with raw := bs, rawWritten := Vector.replicate 6 true }

/-! ### Well-formedness (R99) -/

theorem test_wf_rb_5 : (Instr.rb 5#3).wellFormed = true := by decide
theorem test_wf_refuses_rb_6 : (Instr.rb 6#3).wellFormed = false := by decide
theorem test_wf_refuses_rb_7 : (Instr.rb 7#3).wellFormed = false := by decide

/-! ### Decoding: words written out from R91 to R105 and 95_test_vectors.md 2.1, 2.2 -/

theorem test_decode_init : decoded (.h24 0x01FFFF#24) = some (.init 0xFFFF#16) := by decide
theorem test_decode_read : decoded (.h24 0x02ABCD#24) = some .read := by decide
theorem test_decode_getth : decoded (.h24 0x030000#24) = some .getth := by decide
theorem test_decode_fmt : decoded (.h24 0x04FF15#24) = some (.fmt (BitVec.ofInt 16 (-235))) := by decide
theorem test_decode_host_zero : decoded (.h24 0x000000#24) = none := by decide
theorem test_decode_host_five : decoded (.h24 0x050000#24) = none := by decide
theorem test_decode_host_ff : decoded (.h24 0xFF0000#24) = none := by decide
theorem test_decode_saddr : decoded (.u24 0x100038#24) = some (.saddr 0x38#7) := by decide
theorem test_decode_saddr_reserved : decoded (.u24 0x100080#24) = none := by decide
theorem test_decode_scnt : decoded (.u24 0x200006#24) = some (.scnt 6#8) := by decide
theorem test_decode_srd : decoded (.u24 0x300000#24) = some .srd := by decide
theorem test_decode_srd_reserved : decoded (.u24 0x300001#24) = none := by decide
theorem test_decode_swr : decoded (.u24 0x400000#24) = some .swr := by decide
theorem test_decode_start : decoded (.u24 0x500000#24) = some .start := by decide
theorem test_decode_stop : decoded (.u24 0x600000#24) = some .stop := by decide
theorem test_decode_wb : decoded (.u24 0x7000E1#24) = some (.wb 0xE1#8) := by decide
theorem test_decode_wb_reserved : decoded (.u24 0x700100#24) = none := by decide
theorem test_decode_rb : decoded (.u24 0x800005#24) = some (.rb 5#3) := by decide
theorem test_decode_rb_reserved : decoded (.u24 0x800006#24) = none := by decide
theorem test_decode_dly : decoded (.u24 0x9124F8#24) = some (.dly 75000#20) := by decide
theorem test_decode_dly_max : decoded (.u24 0x9FFFFF#24) = some (.dly 1048575#20) := by decide
theorem test_decode_end : decoded (.u24 0xA00000#24) = some .endOp := by decide
theorem test_decode_rom_31 : decoded (.u24 0x000000#24) = none := by decide
theorem test_decode_kind_b : decoded (.u24 0xB00000#24) = none := by decide
theorem test_decode_dev_addr : decoded (.wire (.a7 0b0111000#7)) = some .devAddr := by decide
theorem test_decode_calinit : decoded (.wire (.w3 0xE10800#24)) = some .calinit := by decide
theorem test_decode_trigger : decoded (.wire (.w3 0xAC3300#24)) = some .trigger := by decide
theorem test_decode_resp :
    decoded (.wire (.r6 0x1919999A6666#48)) = some (.resp 0x19#8 0x19999#20 0xA6666#20) := by decide
theorem test_decode_status : decoded (.wire (.s8 0x99#8)) = some (.status 0x99#8) := by decide

/-- The all-zero host word and ROM word 31 have the same bits; the interface tells them apart (R107). -/
theorem test_decode_needs_the_interface :
    decode (.h24 0x000000#24) = .error .reservedHostOpcode ∧ decode (.u24 0x000000#24) = .error .reservedKind := by
  decide

/-- R108's line for the host program P1 of 95_test_vectors.md. -/
theorem test_assembler_line : assemblerLine (.fmt (BitVec.ofInt 16 (-235))) = some "FMT -235" := by decide

/-- R108's own example lines, and a malformed one. -/
theorem test_assemble_lines :
    assembleMicro Config.defaultDelays "SADDR" [.num 0x38] = some [.saddr 0x38#7] ∧
    assembleMicro Config.defaultDelays "DLY" [.param .tMeasUs] = some [.dly 75000#20] ∧
    assembleMicro Config.defaultDelays "RB" [.num 6] = none := by decide

/-- P1 of 95_test_vectors.md: FMT TEMP100 when TEMP100 = 7999 is the word 0x041F3F. -/
theorem test_assemble_fmt_register :
    (assembleHost "FMT" [.reg .temp100] { State.reset with temp100 := 0x1F3F#16, convWritten := true }).map encode =
      some (.h24 0x041F3F#24) ∧
    assembleHost "FMT" [.reg .temp100] State.reset = none := by decide

/-- R109's expansion, word by word, as P3 of 95_test_vectors.md lists it. -/
theorem test_init_program :
    initProgram Config.defaultDelays =
      [.saddr 0x38#7, .scnt 3#8, .swr, .start, .wb 0xE1#8, .wb 0x08#8, .wb 0x00#8, .stop, .dly 40#20, .endOp] := by
  decide

/-- P4 of 95_test_vectors.md, the words with delays. -/
theorem test_rom_delay_words :
    State.reset.rom[8] = 0x900028#24 ∧ State.reset.rom[17] = 0x9124F8#24 ∧ State.reset.rom[29] = 0x9001A4#24 := by
  decide

/-! ### Host operations (95_test_vectors.md 2.4, P1, P5) -/

theorem test_init_accepted :
    got (fun t => (t.bound, t.busSpeed, t.upc, t.active)) (execInit 7#16 State.reset) = some (true, 7#16, 0#5, true) := by
  decide
theorem test_second_init_refused : why (execInit 7#16 (ready [])) = some .alreadyBound := by decide
theorem test_read_accepted : got (fun t => (t.op, t.upc, t.active)) (execRead (ready [])) = some (2#2, 10#5, true) := by
  decide
theorem test_read_before_init_refused : why (execRead State.reset) = some .notBound := by decide
theorem test_getth_accepted : got (fun t => (t.op, t.upc, t.active)) (execGetth (ready [])) = some (3#2, 10#5, true) := by
  decide
theorem test_getth_busy : why (execGetth atZero) = some .busy := by decide
theorem test_fmt_minus_235 :
    got (fun t => (t.str.toList.take 5, t.strlen)) (execFmt 0xFF15#16 State.reset) =
      some ([0x2D#8, 0x32#8, 0x2E#8, 0x34#8, 0x00#8], 4#3) := by decide
theorem test_fmt_minus_9995 :
    got (fun t => (t.str.toList.take 7, t.strlen)) (execFmt 0xD8F5#16 State.reset) =
      some ([0x2D#8, 0x31#8, 0x30#8, 0x30#8, 0x2E#8, 0x30#8, 0x00#8], 6#3) := by decide

/-- Rows of 95_test_vectors.md 2.8: ties, carries, negative zero, the extremes. -/
theorem test_formatter_rows :
    centiText 0x0005#16 = [0x30#8, 0x2E#8, 0x31#8] ∧ centiText 0xFFFC#16 = [0x2D#8, 0x30#8, 0x2E#8, 0x30#8] ∧
    centiText 0x005F#16 = [0x31#8, 0x2E#8, 0x30#8] ∧ centiText 0x7FBB#16 = [0x33#8, 0x32#8, 0x37#8, 0x2E#8, 0x30#8] ∧
    centiText 0x8000#16 = [0x2D#8, 0x33#8, 0x32#8, 0x37#8, 0x2E#8, 0x37#8] := by decide

/-! ### Micro-operations (95_test_vectors.md 2.3) -/

theorem test_saddr : got (fun t => (t.ev, t.tr.addr, t.upc)) (execSaddr 0x38#7 { atZero with tr := State.reset.tr }) =
    some ([.setAddress 0x38#7], 0x38#7, 1#5) := by decide
theorem test_scnt : got (fun t => (t.ev, t.tr.nbytes, t.upc)) (execScnt 3#8 (at_ 1 1 0 .write false 0)) =
    some ([.setByteCount 3#8], 3#8, 2#5) := by decide
theorem test_srd : got (fun t => (t.ev, t.tr, t.upc)) (execSrd (at_ 2 19 6 .write false 3)) =
    some ([.setReadMode], (at_ 2 0 6 .read false 3).tr, 20#5) := by decide
theorem test_swr : got (fun t => (t.ev, t.tr, t.upc)) (execSwr (at_ 2 28 6 .read false 6)) =
    some ([.setWriteMode], (at_ 2 0 6 .write false 6).tr, 29#5) := by decide
theorem test_start : got (fun t => (t.ev, t.tr, t.upc)) (execStart (at_ 1 3 3 .write false 9)) =
    some ([.start], (at_ 1 0 3 .write true 0).tr, 4#5) := by decide
theorem test_stop : got (fun t => (t.ev, t.tr, t.upc)) (execStop (at_ 1 7 3 .write true 3)) =
    some ([.stop], (at_ 1 0 3 .write false 3).tr, 8#5) := by decide
theorem test_wb : got (fun t => (t.ev, t.tr, t.upc)) (execWb 0xE1#8 (at_ 1 4 3 .write true 0)) =
    some ([.writeByte 0xE1#8], (at_ 1 0 3 .write true 1).tr, 5#5) := by decide
theorem test_rb_3 :
    got (fun t => (t.ev, t.raw[3], t.raw[2], t.tr.xfer, t.upc))
        (execRb 3#3 { at_ 3 24 6 .read true 3 with env := [0x9A#8] }) =
      some ([.readByte 0x9A#8], 0x9A#8, 0x00#8, 4#8, 25#5) := by decide
theorem test_rb_0_consumes :
    got (fun t => (t.raw[0], t.env, t.rawWritten[0], t.rawWritten[1]))
        (execRb 0#3 { at_ 3 21 6 .read true 0 with env := [0x99#8, 0x12#8] }) =
      some (0x99#8, [0x12#8], true, false) := by decide
theorem test_dly : got (fun t => (t.ev, t.tr, t.upc)) (execDly 40#20 (at_ 1 8 3 .write false 3)) =
    some ([.delay 40#20], (at_ 1 0 3 .write false 3).tr, 9#5) := by decide
theorem test_end_init : got (fun t => (t.active, t.upc, t.ev, t.convWritten)) (execEnd (at_ 1 9 3 .write false 3)) =
    some (false, 9#5, [], false) := by decide
theorem test_end_getth :
    got (fun t => (t.hraw, t.traw, t.temp100, t.humid100, t.status, t.active))
        (execEnd (withRaw #v[0x19, 0x19, 0x99, 0x9A, 0x66, 0x66])) =
      some (0x19999#20, 0xA6666#20, 0x1F3F#16, 9#16, 0x19#8, false) := by decide
/-- R144: the event is there, the transfer is not counted, and the block goes no further. -/
theorem test_wb_hangs :
    got (fun t => (t.ev, t.tr.xfer, t.upc, isStuck (step t)))
        (execWb 0xE1#8 { at_ 1 4 3 .write true 0 with hangIn := some 0 }) =
      some ([.writeByte 0xE1#8], 0#8, 4#5, true) := by decide

/-- R144: a frame whose second byte hangs. -/
theorem test_calinit_hangs :
    got (fun t => (t.ev, t.tr.xfer, t.upc, t.waiting)) (execCalinit { at_ 1 4 3 .write true 0 with hangIn := some 1 }) =
      some ([.writeByte 0xE1#8, .writeByte 0x08#8], 1#8, 5#5, true) := by decide
theorem test_start_idle_refused : why (execStart State.reset) = some .sequencerIdle := by decide

/-! ### Wire frames (worked by hand from R102 to R105) -/

theorem test_dev_addr : got (fun t => (t.ev, t.tr.addr)) (execDevAddr { atZero with tr := State.reset.tr }) =
    some ([.setAddress 0x38#7], 0x38#7) := by decide
theorem test_calinit : got (fun t => (t.ev, t.tr.xfer)) (execCalinit (at_ 1 4 3 .write true 0)) =
    some ([.writeByte 0xE1#8, .writeByte 0x08#8, .writeByte 0x00#8], 3#8) := by decide
theorem test_trigger : got (fun t => (t.ev, t.upc)) (execTrigger (at_ 2 13 3 .write true 0)) =
    some ([.writeByte 0xAC#8, .writeByte 0x33#8, .writeByte 0x00#8], 16#5) := by decide
theorem test_resp :
    got (fun t => (t.raw, t.tr.xfer)) (execResp 0x19#8 0x19999#20 0xA6666#20 (at_ 3 21 6 .read true 0)) =
      some (#v[0x19#8, 0x19#8, 0x99#8, 0x9A#8, 0x66#8, 0x66#8], 6#8) := by decide
theorem test_status : got (fun t => (t.raw[0], t.ev)) (execStatus 0x99#8 (at_ 3 21 6 .read true 0)) =
    some (0x99#8, [.readByte 0x99#8]) := by decide

/-! ### Unpacker and scaler (95_test_vectors.md 2.5 to 2.7) -/

theorem test_unpack_nibbles :
    unpackH 0x12#8 0x34#8 0x56#8 = 0x12345#20 ∧ unpackT 0x56#8 0x78#8 0x9A#8 = 0x6789A#20 ∧
    unpackH 0x00#8 0x00#8 0x0F#8 = 0#20 ∧ unpackT 0xF0#8 0x00#8 0x00#8 = 0#20 := by decide
theorem test_scale_temperature :
    scaleT 0#20 = 0xEC78#16 ∧ scaleT 52#20 = 0xEC78#16 ∧ scaleT 53#20 = 0xEC79#16 ∧ scaleT 262143#20 = 0xFFFF#16 ∧
    scaleT 377487#20 = 0x0897#16 ∧ scaleT 1048575#20 = 0x3A97#16 := by decide
theorem test_scale_humidity :
    scaleH 10485#20 = 0#16 ∧ scaleH 10486#20 = 1#16 ∧ scaleH 52429#20 = 4#16 ∧ scaleH 1038113#20 = 98#16 ∧
    scaleH 1048575#20 = 99#16 := by decide

/-! ### Fetch, step and host reads -/

theorem test_step_init : got (fun t => (t.busSpeed, t.hostq)) (step (State.reset.withFetchWord 24 0x010007)) =
    some (7#16, []) := by decide
theorem test_step_saddr : got (fun t => t.ev) (step (State.reset.withFetchWord 24 0x100038)) =
    some [.setAddress 0x38#7] := by decide
theorem test_step_rom : got (fun t => t.ev) (step (at_ 2 17 3 .write false 3)) = some [.delay 75000#20] := by decide
theorem test_step_reserved : why (step { State.reset with hostq := [0x050000#24] }) =
    some (.reserved .reservedHostOpcode) := by decide
theorem test_host_read_after_read :
    hostRead (.raw 3) { withRaw #v[0x99, 0, 0, 0x9A, 0, 0] with active := false } = .ok 0x9A#20 ∧
    hostRead .temp100 { withRaw #v[0x99, 0, 0, 0x9A, 0, 0] with active := false } = .error .noValue := by decide

/-! ### Witnesses: the hypotheses of each statement, met together -/

/-- A word in the ROM that does not decode (R99: RB 6). -/
def badRom : State := { atZero with rom := State.reset.rom.set 0 0x800006#24 }

/-- INIT just before its END. -/
def initAt9 : State := at_ opInit 9 3 .write false 3

/-- READ or GETTH at word 10, 20, 26, 27 or 30: the transport as R166 has it there, RAW filled from word 27 on. -/
def getthAt (op : BitVec 2) (upc : BitVec 5) (n : BitVec 8) (m : Direction) (isOpen : Bool) (xfer : BitVec 8) : State :=
  { at_ op upc n m isOpen xfer with rawWritten := Vector.replicate 6 true }

/-- The history of INIT, which the monitor accepts. -/
def afterInitEvents : List Event := initEvents Config.defaultDelays

theorem inv_of_init {s : State} (hr : s.rom = State.reset.rom) (hw : s.wire = []) (hb : s.bound = true)
    (ha : s.active = true) (ho : s.op = opInit) (hu : s.upc.toNat ≤ 9) (hc : s.convWritten = false)
    (hs : s.strWritten = false) (ht : InitTransport s.upc.toNat s.tr) : Inv Config.defaultDelays s where
  rom := hr
  wire := hw
  waiting := fun _ => ha
  bound := fun _ => hb
  program := fun _ => .inl ⟨ho, hu⟩
  initTransport := fun _ _ => ht
  readTransport := fun _ h => absurd ho h
  idleTransport := fun h => by simp [ha] at h
  rawFilled := fun _ h => absurd ho h
  convRaw := fun h => by simp [hc] at h
  results := fun h => by simp [hc] at h
  string := fun h => by simp [hs] at h

theorem inv_of_read {s : State} (hr : s.rom = State.reset.rom) (hw : s.wire = []) (hb : s.bound = true)
    (ha : s.active = true) (ho : s.op = opRead ∨ s.op = opGetth) (h1 : 10 ≤ s.upc.toNat) (h2 : s.upc.toNat ≤ 30)
    (hf : ∀ i : Fin 6, s.rawWritten[i] = true) (hc : s.convWritten = false) (hs : s.strWritten = false)
    (ht : ReadTransport s.upc.toNat s.tr) : Inv Config.defaultDelays s where
  rom := hr
  wire := hw
  waiting := fun _ => ha
  bound := fun _ => hb
  program := fun _ => .inr ⟨ho, h1, h2⟩
  initTransport := fun _ h => by rcases ho with e | e <;> rw [e] at h <;> exact absurd h (by decide)
  readTransport := fun _ _ => ht
  idleTransport := fun h => by simp [ha] at h
  rawFilled := fun _ _ i _ => hf i
  convRaw := fun h => by simp [hc] at h
  results := fun h => by simp [hc] at h
  string := fun h => by simp [hs] at h

theorem test_inv_init_end : Inv Config.defaultDelays initAt9 :=
  inv_of_init rfl rfl rfl rfl rfl (by decide) rfl rfl
    ⟨fun _ => rfl, fun _ => rfl, fun _ => rfl, fun _ => rfl, fun h => absurd h (by decide)⟩

theorem test_inv_init_start : Inv Config.defaultDelays atZero :=
  inv_of_init rfl rfl rfl rfl rfl (by decide) rfl rfl
    ⟨fun h => absurd h (by decide), fun h => absurd h (by decide), fun h => absurd h (by decide),
      fun h => absurd h (by decide), fun h => absurd h (by decide)⟩

theorem test_inv_wb_last : Inv Config.defaultDelays (at_ opInit 6 3 .write true 2) :=
  inv_of_init rfl rfl rfl rfl rfl (by decide) rfl rfl
    ⟨fun _ => rfl, fun _ => rfl, fun _ => rfl, fun _ => rfl, fun _ => rfl⟩

theorem test_inv_stop_init : Inv Config.defaultDelays (at_ opInit 7 3 .write true 3) :=
  inv_of_init rfl rfl rfl rfl rfl (by decide) rfl rfl
    ⟨fun _ => rfl, fun _ => rfl, fun _ => rfl, fun _ => rfl, fun _ => rfl⟩

theorem test_inv_read_start : Inv Config.defaultDelays (getthAt opRead 10 3 .write false 3) :=
  inv_of_read rfl rfl rfl rfl (.inl rfl) (by decide) (by decide) (by decide) rfl rfl
    ⟨rfl, fun h => absurd h (by decide), rfl, rfl, fun h => absurd h (by decide)⟩

theorem test_inv_rb_last : Inv Config.defaultDelays (getthAt opGetth 26 6 .read true 5) :=
  inv_of_read rfl rfl rfl rfl (.inr rfl) (by decide) (by decide) (by decide) rfl rfl
    ⟨rfl, fun _ => rfl, rfl, rfl, fun _ => rfl⟩

theorem test_inv_dly_post : Inv Config.defaultDelays (getthAt opGetth 29 6 .write false 6) :=
  inv_of_read rfl rfl rfl rfl (.inr rfl) (by decide) (by decide) (by decide) rfl rfl
    ⟨rfl, fun _ => rfl, rfl, rfl, fun h => absurd h (by decide)⟩

theorem test_inv_getth_end : Inv Config.defaultDelays (getthAt opGetth 30 6 .write false 6) :=
  inv_of_read rfl rfl rfl rfl (.inr rfl) (by decide) (by decide) (by decide) rfl rfl
    ⟨rfl, fun _ => rfl, rfl, rfl, fun h => absurd h (by decide)⟩

theorem test_witness_DecodeOfEncodeIsTheInstruction : (Instr.rb 5#3).wellFormed = true := by decide

theorem test_witness_EncodeOfDecodedMicroOrWireWordIsTheWord :
    decode (.u24 0x9FFFFF#24) = .ok (.dly 0xFFFFF#20) ∧
    decode (.wire (.r6 0x1919999A6666#48)) = .ok (.resp 0x19#8 0x19999#20 0xA6666#20) := by decide

theorem test_witness_DecodedInstructionsAreWellFormed : decode (.u24 0x800005#24) = .ok (.rb 5#3) := by decide

theorem test_witness_ReadAndGetthIgnoreTheirArgument : State.reset.active = false ∧ State.reset.wire = [] := by decide

theorem test_witness_InitArgumentGoesToBusSpeedOnly :
    ∃ t, exec (.init 7#16) State.reset = .next t := ⟨_, rfl⟩

theorem test_witness_ReservedHostOpcodesAreRefused :
    hopField 0x00FFFF#24 = 0x00#8 ∧ 0x05 ≤ (hopField 0x050000#24).toNat ∧ 0x05 ≤ (hopField 0xFF0000#24).toNat ∧
    ({ State.reset with hostq := [0x050000#24] } : State).active = false ∧
    ({ State.reset with hostq := [0x050000#24] } : State).waiting = false ∧
    ({ State.reset with hostq := [0x050000#24] } : State).wire = [] ∧
    ({ State.reset with hostq := [0x050000#24] } : State).hostq = 0x050000#24 :: [] := by decide

theorem test_witness_MicroWordsDecodeExactlyAsTheTableSays :
    badRom.active = true ∧ badRom.waiting = false ∧ badRom.wire = [] ∧ romWord badRom = 0x800006#24 ∧
    ∀ i : Instr, decode (.u24 0x800006#24) ≠ .ok i := by
  have h : decode (.u24 0x800006#24) = .error .noSuchRawElement := by decide
  refine ⟨rfl, rfl, rfl, by decide, fun i => ?_⟩
  rw [h]
  nofun

theorem test_witness_StepRunsTheDecodedInstruction :
    (ready [0x02ABCD#24]).waiting = false ∧ atZero.waiting = false ∧
    (ready [0x02ABCD#24]).wire = [] ∧ (ready [0x02ABCD#24]).active = false ∧
    (ready [0x02ABCD#24]).hostq = 0x02ABCD#24 :: [] ∧ decode (.h24 0x02ABCD#24) = .ok .read ∧
    atZero.wire = [] ∧ atZero.active = true ∧ decode (.u24 (romWord atZero)) = .ok (.saddr 0x38#7) ∧
    ({ atZero with wire := [.s8 0x99#8] } : State).wire = .s8 0x99#8 :: [] ∧
    decode (.wire (.s8 0x99#8)) = .ok (.status 0x99#8) := by decide

theorem test_witness_IdleBlockStaysAsItIs :
    State.reset.waiting = false ∧ State.reset.wire = [] ∧ State.reset.active = false ∧ State.reset.hostq = [] := by
  decide

theorem test_witness_CountersAdvanceByOne : (30#5).toNat < 31 ∧ (254#8).toNat < 255 := by decide

theorem test_witness_InitIsAccepted : State.reset.active = false ∧ State.reset.bound = false := by decide

theorem test_witness_ReadAndGetthAreAccepted : (ready []).active = false ∧ (ready []).bound = true := by decide

theorem test_witness_HostOperationsAreAcceptedByTheTable :
    (∃ t, exec (.init 0#16) State.reset = .next t) ∧ ¬((ready []).active = false ∧ (ready []).bound = false) ∧
    (∃ t, exec .read (ready []) = .next t) ∧ (∃ t, exec .getth (ready []) = .next t) ∧
    ¬(State.reset.active = false ∧ State.reset.bound = true) ∧ (∃ t, exec (.fmt 0#16) State.reset = .next t) ∧
    atZero.active = true ∧ (hopField 0x000000#24).toNat = 0 ∧ 5 ≤ (hopField 0x050000#24).toNat :=
  ⟨⟨_, rfl⟩, by decide, ⟨_, rfl⟩, ⟨_, rfl⟩, by decide, ⟨_, rfl⟩, rfl, by decide, by decide⟩

/-- For every statement about the micro-operations: enabled, and with one more primitive that returns. -/
theorem test_witness_Enabled : Enabled atZero ∧ Enabled { atZero with hangIn := some 1 } :=
  ⟨⟨rfl, rfl, by decide⟩, ⟨rfl, rfl, by decide⟩⟩

theorem test_witness_ReadByteStoresTheDrawnByte :
    (5#3).toNat < 6 ∧ Enabled (at_ 2 26 6 .read true 5) ∧ 6 ≤ (6#3).toNat :=
  ⟨by decide, ⟨rfl, rfl, by decide⟩, by decide⟩

theorem test_witness_EndConvertsForGetthAndClearsActive :
    (at_ 3 30 6 .write false 6).waiting = false ∧ initAt9.waiting = false ∧
    ((at_ 3 30 6 .write false 6).active = true ∧ (at_ 3 30 6 .write false 6).op = 3#2) ∧
    (initAt9.active = true ∧ initAt9.op ≠ 3#2) := by decide

theorem test_witness_MicroOpsHaveNoStepWhenIdle :
    (Instr.rb 5#3).isHostOp = false ∧ (Instr.rb 5#3).wellFormed = true ∧ State.reset.active = false := by decide

theorem test_witness_AddressCommandAndStatusFramesTransfer :
    atZero.active = true ∧ atZero.waiting = false ∧ atZero.hangIn = none := by decide

theorem test_witness_ResponseFrameFillsRaw :
    (at_ 3 25 6 .read true 249).active = true ∧ (at_ 3 25 6 .read true 249).waiting = false ∧ (at_ 3 25 6 .read true 249).hangIn = none ∧
    (at_ 3 25 6 .read true 249).tr.xfer.toNat ≤ 249 ∧ (at_ 3 25 6 .read true 249).upc.toNat ≤ 25 := by decide

theorem test_witness_WireFramesAreTheirRomWords :
    State.reset.rom = romOf Config.defaultDelays ∧
    (atZero.rom = State.reset.rom ∧ atZero.wire = [] ∧ atZero.active = true ∧ atZero.upc = 0#5) ∧
    (at_ 1 4 3 .write true 0).upc = 4#5 ∧ (at_ 2 13 3 .write true 0).upc = 13#5 ∧
    (at_ 3 21 6 .read true 0).upc = 21#5 := ⟨rfl, by decide, rfl, rfl, rfl⟩

/-- Both clauses: the step that comes to wait, and the one after it. -/
theorem test_witness_OnlyACollaboratorCanStopTheBlock :
    (∃ t, step { atZero with hangIn := some 0 } = .next t ∧ t.waiting = true) ∧
    step { atZero with waiting := true } = .fault .stuck := ⟨⟨_, rfl, rfl⟩, rfl⟩

theorem test_witness_ANeverReturningPrimitiveIsStuck :
    firstEvent (.saddr 0x38#7) { atZero with hangIn := some 0 } = some (.setAddress 0x38#7) ∧
    (Instr.saddr 0x38#7).wellFormed = true ∧ ({ atZero with hangIn := some 0 } : State).active = true ∧
    ({ atZero with hangIn := some 0 } : State).waiting = false ∧
    ({ atZero with hangIn := some 0 } : State).hangIn = some 0 := by decide

theorem test_witness_AWaitingBlockRunsNothing :
    ({ atZero with waiting := true } : State).active = true ∧ ({ atZero with waiting := true } : State).waiting = true ∧
    Instr.endOp.isHostOp = false ∧ Instr.endOp.wellFormed = true ∧ Instr.read.isHostOp = true := by decide

theorem test_witness_InitRunsToItsEnd :
    Presented Config.defaultDelays (hostWord 0x01#8 7#16) [] { State.reset with hostq := [0x010007#24] } ∧
    ({ State.reset with hostq := [0x010007#24] } : State).bound = false :=
  ⟨⟨rfl, rfl, rfl, by decide, rfl, rfl⟩, rfl⟩

theorem test_witness_ReadRunsToItsEnd :
    Presented Config.defaultDelays (hostWord 0x02#8 0xABCD#16) [] (ready [0x02ABCD#24]) ∧
    (ready [0x02ABCD#24]).bound = true :=
  ⟨⟨rfl, rfl, rfl, by decide, rfl, rfl⟩, rfl⟩

theorem test_witness_GetthRunsToItsEnd :
    Presented Config.defaultDelays (hostWord 0x03#8 0#16) [] (ready [0x030000#24]) ∧
    (ready [0x030000#24]).bound = true :=
  ⟨⟨rfl, rfl, rfl, by decide, rfl, rfl⟩, rfl⟩

/-- A run of each of the three operations, and a DLY word. -/
theorem test_witness_DelaysOfTheMicroPrograms :
    (Presented Config.defaultDelays (hostWord 0x01#8 7#16) [] { State.reset with hostq := [0x010007#24] } ∧
      ({ State.reset with hostq := [0x010007#24] } : State).bound = false) ∧
    (Presented Config.defaultDelays (hostWord 0x02#8 0xABCD#16) [] (ready [0x02ABCD#24]) ∧
      (ready [0x02ABCD#24]).bound = true) ∧
    (Presented Config.defaultDelays (hostWord 0x03#8 0#16) [] (ready [0x030000#24]) ∧
      (ready [0x030000#24]).bound = true) ∧
    decode (.u24 (romOf Config.defaultDelays)[17]) = .ok (.dly 75000#20) :=
  ⟨test_witness_InitRunsToItsEnd, test_witness_ReadRunsToItsEnd, test_witness_GetthRunsToItsEnd, by decide⟩

/-- Both ends of both micro-programs. -/
theorem test_witness_EveryMicroProgramTerminates :
    (atZero.waiting = false ∧ initAt9.waiting = false ∧ (getthAt opRead 10 3 .write false 3).waiting = false ∧
      (getthAt opGetth 30 6 .write false 6).waiting = false) ∧
    (Inv Config.defaultDelays atZero ∧ atZero.active = true ∧ atZero.hangIn = none ∧ atZero.op = opInit) ∧
    (Inv Config.defaultDelays initAt9 ∧ initAt9.active = true ∧ initAt9.hangIn = none) ∧
    (Inv Config.defaultDelays (getthAt opRead 10 3 .write false 3) ∧
      (getthAt opRead 10 3 .write false 3).active = true ∧ (getthAt opRead 10 3 .write false 3).hangIn = none ∧
      (getthAt opRead 10 3 .write false 3).op ≠ opInit) ∧
    (Inv Config.defaultDelays (getthAt opGetth 30 6 .write false 6) ∧
      (getthAt opGetth 30 6 .write false 6).active = true ∧ (getthAt opGetth 30 6 .write false 6).hangIn = none) :=
  ⟨by decide, ⟨test_inv_init_start, rfl, rfl, rfl⟩, ⟨test_inv_init_end, rfl, rfl⟩,
    ⟨test_inv_read_start, rfl, rfl, by decide⟩, ⟨test_inv_getth_end, rfl, rfl⟩⟩

theorem test_witness_EveryStepKeepsTheInvariant :
    Inv Config.defaultDelays (getthAt opGetth 30 6 .write false 6) ∧
    ∃ t, step (getthAt opGetth 30 6 .write false 6) = .next t := ⟨test_inv_getth_end, _, rfl⟩

/-- At INIT's STOP, with the history so far. -/
theorem test_witness_EveryStepKeepsTheBusDiscipline :
    Inv Config.defaultDelays { at_ opInit 7 3 .write true 3 with ev := afterInitEvents.take 7 } ∧
    BusInv { at_ opInit 7 3 .write true 3 with ev := afterInitEvents.take 7 } ∧
    ∃ t, step { at_ opInit 7 3 .write true 3 with ev := afterInitEvents.take 7 } = .next t :=
  ⟨inv_of_init rfl rfl rfl rfl rfl (by decide) rfl rfl
      ⟨fun _ => rfl, fun _ => rfl, fun _ => rfl, fun _ => rfl, fun _ => rfl⟩,
    ⟨{ count := some 3, mode := some .write, moved := some 3 }, by decide,
      fun _ => ⟨by decide, fun _ _ => rfl, fun _ _ => rfl⟩⟩,
    _, rfl⟩

theorem test_witness_SequencerRunsTheListedProgram :
    Inv Config.defaultDelays initAt9 ∧ initAt9.active = true := ⟨test_inv_init_end, rfl⟩

theorem test_inv_start_init : Inv Config.defaultDelays (at_ opInit 3 3 .write false 9) :=
  inv_of_init rfl rfl rfl rfl rfl (by decide) rfl rfl
    ⟨fun _ => rfl, fun _ => rfl, fun _ => rfl, fun h => absurd h (by decide), fun h => absurd h (by decide)⟩

theorem test_inv_start_read : Inv Config.defaultDelays (getthAt opRead 20 6 .read false 3) :=
  inv_of_read rfl rfl rfl rfl (.inl rfl) (by decide) (by decide) (by decide) rfl rfl
    ⟨rfl, fun _ => rfl, rfl, rfl, fun h => absurd h (by decide)⟩

/-- One state for each clause: the last WB, the last RB, STOP, DLY, START in both programs, configuration in both. -/
theorem test_witness_TransportIsReadyForEachPrimitive :
    (Inv Config.defaultDelays (at_ opInit 6 3 .write true 2) ∧
      decode (.u24 (romWord (at_ opInit 6 3 .write true 2))) = .ok (.wb 0x00#8)) ∧
    (Inv Config.defaultDelays (getthAt opGetth 26 6 .read true 5) ∧
      decode (.u24 (romWord (getthAt opGetth 26 6 .read true 5))) = .ok (.rb 5#3)) ∧
    (Inv Config.defaultDelays (at_ opInit 7 3 .write true 3) ∧
      decode (.u24 (romWord (at_ opInit 7 3 .write true 3))) = .ok .stop) ∧
    (Inv Config.defaultDelays (getthAt opGetth 29 6 .write false 6) ∧
      decode (.u24 (romWord (getthAt opGetth 29 6 .write false 6))) = .ok (.dly 420#20)) ∧
    (Inv Config.defaultDelays (at_ opInit 3 3 .write false 9) ∧
      decode (.u24 (romWord (at_ opInit 3 3 .write false 9))) = .ok .start) ∧
    (Inv Config.defaultDelays (getthAt opRead 20 6 .read false 3) ∧
      decode (.u24 (romWord (getthAt opRead 20 6 .read false 3))) = .ok .start ∧ opRead ≠ opInit) ∧
    (Inv Config.defaultDelays atZero ∧ decode (.u24 (romWord atZero)) = .ok (.saddr 0x38#7) ∧ atZero.op = opInit) ∧
    (Inv Config.defaultDelays (getthAt opRead 10 3 .write false 3) ∧
      decode (.u24 (romWord (getthAt opRead 10 3 .write false 3))) = .ok (.scnt 3#8)) :=
  ⟨⟨test_inv_wb_last, by decide⟩, ⟨test_inv_rb_last, by decide⟩, ⟨test_inv_stop_init, by decide⟩,
    ⟨test_inv_dly_post, by decide⟩, ⟨test_inv_start_init, by decide⟩, ⟨test_inv_start_read, by decide, by decide⟩,
    ⟨test_inv_init_start, by decide, rfl⟩, ⟨test_inv_read_start, by decide⟩⟩

/-- RB at each side of its clauses: an element it writes and one it does not. -/
theorem test_witness_RegistersChangeOnlyByTheirWriters :
    (∃ t, exec (.rb 5#3) (at_ 2 26 6 .read true 5) = .next t) ∧ (4 : Nat) ≠ (5#3).toNat ∧
    (∃ t, exec .endOp initAt9 = .next t) ∧ ¬(Instr.endOp = .endOp ∧ initAt9.op = opGetth) ∧
    (∃ t, exec .read (ready []) = .next t) ∧ Instr.read.issues = false :=
  ⟨⟨_, rfl⟩, by decide, ⟨_, rfl⟩, by decide, ⟨_, rfl⟩, rfl⟩

theorem test_witness_BoundStaysAndHistoryGrows :
    (∃ t, step atZero = .next t) ∧ atZero.bound = true ∧ atZero.wire = [] := ⟨⟨_, rfl⟩, rfl, rfl⟩

theorem test_witness_ControlNeverDependsOnData :
    SameControl (withRaw #v[0x19, 0, 0, 0, 0, 0]) (withRaw #v[0x99, 1, 2, 3, 4, 5]) :=
  ⟨rfl, rfl, rfl, rfl, rfl, rfl, rfl, rfl, rfl, rfl, rfl⟩

theorem test_witness_StatusByteNeverReachesTheReadings :
    (∀ i : Fin 6, i.val ≠ 0 →
      (withRaw #v[0x19, 1, 2, 3, 4, 5]).raw[i] = (withRaw #v[0x99, 1, 2, 3, 4, 5]).raw[i]) ∧
    (withRaw #v[0x19, 1, 2, 3, 4, 5]).raw[0] ≠ (withRaw #v[0x99, 1, 2, 3, 4, 5]).raw[0] := by decide

theorem test_witness_StatusWiresAtTheNamedValues :
    ({ State.reset with status := 0x19#8 } : State).status = 0x19#8 ∧
    ({ State.reset with status := 0x99#8 } : State).status = 0x99#8 := by decide

theorem test_witness_HumidityFormulaAndItsBound : (52428#20).toNat < 52429 ∧ (52429#20).toNat = 52429 := by decide

/-- Both signs. -/
theorem test_witness_FmtWritesTheStringLayout :
    State.reset.active = false ∧ value100 0xFFFF#16 < 0 ∧ ¬value100 0x0000#16 < 0 ∧
    (0 : Nat) < (wholeDigits (tenths 0xFFFF#16).1).length := by decide

theorem test_witness_FormattedString : ∃ t, exec (.fmt 0xFF15#16) State.reset = .next t := ⟨_, rfl⟩

theorem test_witness_FmtSourceExamples : State.reset.active = false := rfl

theorem test_witness_NegativeZeroKeepsItsSign :
    (-4 ≤ (0xFFFC#16).toInt ∧ (0xFFFC#16).toInt ≤ -1 ∧ ∃ t, exec (.fmt 0xFFFC#16) State.reset = .next t) ∧
    (-4 ≤ (0xFFFF#16).toInt ∧ (0xFFFF#16).toInt ≤ -1 ∧ ∃ t, exec (.fmt 0xFFFF#16) State.reset = .next t) :=
  ⟨⟨by decide, by decide, _, rfl⟩, by decide, by decide, _, rfl⟩

theorem test_witness_MostNegativeInputIsFormatted :
    (∃ t, exec (.fmt 0x8000#16) State.reset = .next t) ∧ ∃ t, exec (.fmt 0x8001#16) State.reset = .next t :=
  ⟨⟨_, rfl⟩, _, rfl⟩

/-- "0.0": the terminator is STR[3], and STR[4] lies above it. -/
theorem test_witness_StringIsReadableAfterFmt :
    ∃ t, exec (.fmt 0#16) State.reset = .next t ∧ (3 : Fin 7).val ≤ t.strlen.toNat ∧ t.strlen.toNat < (4 : Fin 7).val :=
  ⟨_, rfl, by decide, by decide⟩

theorem test_witness_ResultsAreReadableAfterGetth :
    Inv Config.defaultDelays (getthAt opGetth 30 6 .write false 6) ∧
    (getthAt opGetth 30 6 .write false 6).upc = 30#5 ∧ (getthAt opGetth 30 6 .write false 6).active = true ∧
    (getthAt opGetth 30 6 .write false 6).op = opGetth ∧
    ∃ t, step (getthAt opGetth 30 6 .write false 6) = .next t := ⟨test_inv_getth_end, rfl, rfl, rfl, _, rfl⟩

/-- From a block that waits for ever, with a collaborator that hangs again and with one that does not. -/
theorem test_witness_PowerCycleNeedsInitAgain :
    ({ atZero with waiting := true } : State).rom = romOf Config.defaultDelays ∧
    (powerCycle (at_ 1 0 3 .write true 2).tr (some 0) [] { atZero with waiting := true }).hangIn = some 0 ∧
    (powerCycle (at_ 1 0 3 .write true 2).tr none [] { atZero with waiting := true }).hangIn = none :=
  ⟨rfl, rfl, rfl⟩

end Sys2Proof.Tests
end

section
/-! SUPPORT. What issuing primitives may change, and all that an instruction can do with a next state: one frame for the
primitives, one inversion lemma for `exec`. -/

namespace Sys2Proof.Machine

/-! ### The frame of a collaborator primitive -/

/-- The state with everything blanked that issuing a primitive may write: UPC, RAW, the transport, EV, and what is
known of the environment. -/
def State.offBus (s : State) : State :=
  { s with
    upc := 0
    raw := Vector.replicate 6 0
    rawWritten := Vector.replicate 6 false
    tr := State.reset.tr
    ev := []
    waiting := false
    env := []
    hangIn := none
    draws := 0 }

/-- What issuing at most `n` primitives, receiving bytes into the RAW elements `is` at most, may change (R131 to R139):
beside them only UPC, the transport and the environment. -/
structure IssueFrame (n : Nat) (is : List (Fin 6)) (s t : State) : Prop where
  kept : t.offBus = s.offBus
  ev : ∃ es : List Event, es.length ≤ n ∧ t.ev = s.ev ++ es
  raw : ∀ j : Fin 6, j ∉ is → t.raw[j] = s.raw[j]
  rawWritten : ∀ j : Fin 6, j ∉ is → t.rawWritten[j] = s.rawWritten[j]
  rawStays : ∀ j : Fin 6, s.rawWritten[j] = true → t.rawWritten[j] = true

namespace IssueFrame

variable {n m : Nat} {is js : List (Fin 6)} {s t u : State}

/-- Any part of the state that does not depend on what primitives write is kept. -/
theorem field {α : Type} (h : IssueFrame n is s t) (p : State → α) : p t.offBus = p s.offBus := congrArg p h.kept

theorem active (h : IssueFrame n is s t) : t.active = s.active := h.field State.active
theorem op (h : IssueFrame n is s t) : t.op = s.op := h.field State.op
theorem bound (h : IssueFrame n is s t) : t.bound = s.bound := h.field State.bound
theorem busSpeed (h : IssueFrame n is s t) : t.busSpeed = s.busSpeed := h.field State.busSpeed
theorem rom (h : IssueFrame n is s t) : t.rom = s.rom := h.field State.rom
theorem hraw (h : IssueFrame n is s t) : t.hraw = s.hraw := h.field State.hraw
theorem traw (h : IssueFrame n is s t) : t.traw = s.traw := h.field State.traw
theorem temp100 (h : IssueFrame n is s t) : t.temp100 = s.temp100 := h.field State.temp100
theorem humid100 (h : IssueFrame n is s t) : t.humid100 = s.humid100 := h.field State.humid100
theorem status (h : IssueFrame n is s t) : t.status = s.status := h.field State.status
theorem str (h : IssueFrame n is s t) : t.str = s.str := h.field State.str
theorem strlen (h : IssueFrame n is s t) : t.strlen = s.strlen := h.field State.strlen
theorem convWritten (h : IssueFrame n is s t) : t.convWritten = s.convWritten := h.field State.convWritten
theorem strWritten (h : IssueFrame n is s t) : t.strWritten = s.strWritten := h.field State.strWritten
theorem wire (h : IssueFrame n is s t) : t.wire = s.wire := h.field State.wire

theorem refl (s : State) : IssueFrame 0 [] s s :=
  ⟨rfl, ⟨[], by simp⟩, fun _ _ => rfl, fun _ _ => rfl, fun _ h => h⟩

/-- A frame allows what a smaller one does. -/
theorem mono (h : IssueFrame n is s t) (hn : n ≤ m) (hi : is ⊆ js) : IssueFrame m js s t where
  kept := h.kept
  ev := h.ev.imp fun _ he => ⟨he.1.trans hn, he.2⟩
  raw j hj := h.raw j fun hm => hj (hi hm)
  rawWritten j hj := h.rawWritten j fun hm => hj (hi hm)
  rawStays := h.rawStays

theorem trans (h : IssueFrame n is s t) (g : IssueFrame m js t u) : IssueFrame (n + m) (is ++ js) s u where
  kept := g.kept.trans h.kept
  ev := by
    obtain ⟨es, hn, he⟩ := h.ev
    obtain ⟨fs, hm, hf⟩ := g.ev
    exact ⟨es ++ fs, by simp; omega, by rw [hf, he, List.append_assoc]⟩
  raw j hj := by
    rw [List.mem_append, not_or] at hj
    exact (g.raw j hj.2).trans (h.raw j hj.1)
  rawWritten j hj := by
    rw [List.mem_append, not_or] at hj
    exact (g.rawWritten j hj.2).trans (h.rawWritten j hj.1)
  rawStays j hj := g.rawStays j (h.rawStays j hj)

/-- UPC lies outside the frame, so advancing it stays within. -/
theorem advance (h : IssueFrame n is s t) : IssueFrame n is s t.advance :=
  ⟨h.kept, h.ev, h.raw, h.rawWritten, h.rawStays⟩

/-- Where no byte is received, RAW stays whole. -/
theorem raw_eq (h : IssueFrame n [] s t) : t.raw = s.raw :=
  Vector.ext fun j hj => h.raw ⟨j, hj⟩ List.not_mem_nil

theorem rawWritten_eq (h : IssueFrame n [] s t) : t.rawWritten = s.rawWritten :=
  Vector.ext fun j hj => h.rawWritten ⟨j, hj⟩ List.not_mem_nil

end IssueFrame

/-- Issuing a primitive writes EV and what is known of the environment, no more. -/
theorem issue_frame (e : Event) (s : State) : IssueFrame 1 [] s (issue e s) := by
  rw [issue_eq]
  exact ⟨rfl, ⟨[e], by simp⟩, fun _ _ => rfl, fun _ _ => rfl, fun _ h => h⟩

theorem consume_frame (s : State) : IssueFrame 0 [] s s.consume :=
  ⟨rfl, ⟨[], by simp⟩, fun _ _ => rfl, fun _ _ => rfl, fun _ h => h⟩

theorem supply_frame (bs : List Byte) (s : State) : IssueFrame 0 [] s (s.supply bs) :=
  ⟨rfl, ⟨[], by simp⟩, fun _ _ => rfl, fun _ _ => rfl, fun _ h => h⟩

/-! ### What a micro-operation writes once its primitive has returned -/

/-- `u` writes the RAW elements `is`, takes the transport through `f`, and writes nothing else. -/
structure WritesOnly (is : List (Fin 6)) (f : Transport → Transport) (u : State → State) : Prop where
  frame : ∀ s, IssueFrame 0 is s (u s)
  upc : ∀ s, (u s).upc = s.upc
  waiting : ∀ s, (u s).waiting = s.waiting
  tr : ∀ s, (u s).tr = f s.tr
  written : ∀ s, ∀ j ∈ is, (u s).rawWritten[j] = true

/-- An update that does not touch RAW writes the transport only, if it changes nothing else. -/
theorem writesOnly_of_transport {f : Transport → Transport} {u : State → State}
    (h : ∀ s, u s = { s with tr := f s.tr }) : WritesOnly [] f u where
  frame s := by
    rw [h s]
    exact ⟨rfl, ⟨[], by simp⟩, fun _ _ => rfl, fun _ _ => rfl, fun _ hj => hj⟩
  upc s := by rw [h s]
  waiting s := by rw [h s]
  tr s := by rw [h s]
  written _ j hj := absurd hj List.not_mem_nil

theorem setRaw_rawWritten_same (i : Fin 6) (b : Byte) (s : State) : (s.setRaw i b).rawWritten[i] = true := by
  simp

theorem setRaw_frame (i : Fin 6) (b : Byte) (s : State) : IssueFrame 0 [i] s (s.setRaw i b) where
  kept := rfl
  ev := ⟨[], by simp⟩
  raw j hj := by
    have hne : i.val ≠ j.val := fun e => hj (by simp [Fin.ext e])
    simp [hne]
  rawWritten j hj := by
    have hne : i.val ≠ j.val := fun e => hj (by simp [Fin.ext e])
    simp [hne]
  rawStays j hj := by
    by_cases hij : i.val = j.val
    · simp [hij]
    · simpa [Vector.getElem_set, hij] using hj

theorem countTransfer_writesOnly : WritesOnly [] (fun t => { t with xfer := nextXfer t.xfer }) State.countTransfer :=
  writesOnly_of_transport fun _ => rfl

theorem receive_writesOnly (i : Fin 6) (b : Byte) :
    WritesOnly [i] (fun t => { t with xfer := nextXfer t.xfer }) (fun s => (s.setRaw i b).countTransfer) where
  frame s := (setRaw_frame i b s).trans (countTransfer_writesOnly.frame _)
  upc _ := rfl
  waiting _ := rfl
  tr _ := rfl
  written s j hj := by
    rw [List.mem_singleton.mp hj]
    exact setRaw_rawWritten_same i b s

/-! ### What a micro-operation does -/

/-- The end of a micro-operation that writes the RAW elements `is` and takes the transport through `f`: it waits for ever
at its own UPC, or it is done, UPC advanced (R29). -/
inductive MicroEnd (is : List (Fin 6)) (f : Transport → Transport) (s t : State) : Prop where
  | hangs (waiting : t.waiting = true) (upc : t.upc = s.upc) (tr : t.tr = s.tr)
  | done (waiting : t.waiting = false) (upc : t.upc = nextUpc s.upc) (tr : t.tr = f s.tr)
      (written : ∀ j ∈ is, t.rawWritten[j] = true)

/-- Everything a micro-operation other than END does: it runs in an active block that waits for nothing, issues one
primitive within its frame, and comes to one of its two ends. -/
structure MicroEffect (is : List (Fin 6)) (f : Transport → Transport) (s t : State) : Prop where
  active : s.active = true
  returned : s.waiting = false
  frame : IssueFrame 1 is s t
  ending : MicroEnd is f s t

theorem microStep_effect {is : List (Fin 6)} {f : Transport → Transport} {u : State → State} {e : Event} {s t : State}
    (hu : WritesOnly is f u) (h : microStep e u s = .next t) : MicroEffect is f s t := by
  obtain ⟨ha, hw, ⟨hh, ht⟩ | ⟨hh, ht⟩⟩ := microStep_eq_next h
  · rw [← issue_of_returns hh] at ht
    have hframe : IssueFrame 1 is s (u (issue e s)) := (issue_frame e s).trans (hu.frame _)
    have hissue := issue_of_returns (e := e) hh
    subst ht
    refine ⟨ha, hw, ?_, .done ?_ ?_ ?_ ?_⟩
    · exact hframe.advance
    · rw [State.advance_waiting, hu.waiting, hissue, hw]
    · rw [State.advance_upc, hu.upc, hissue]
    · rw [State.advance_tr, hu.tr, hissue]
    · exact hu.written _
  · have hframe : IssueFrame 1 [] s t := by rw [ht, ← issue_of_hangs hh]; exact issue_frame e s
    exact ⟨ha, hw, hframe.mono le_rfl (List.nil_subset _), .hangs (by rw [ht]) (by rw [ht]) (by rw [ht])⟩

theorem sendByte_effect {b : Byte} {s t : State} (h : sendByte b s = .next t) :
    MicroEffect [] (fun r => { r with xfer := nextXfer r.xfer }) s t :=
  microStep_effect countTransfer_writesOnly h

theorem receiveByte_effect {i : Fin 6} {s t : State} (h : receiveByte i s = .next t) :
    MicroEffect [i] (fun r => { r with xfer := nextXfer r.xfer }) s t := by
  obtain ⟨ha, hw, hf, he⟩ := microStep_effect (receive_writesOnly i (drawnByte s)) h
  refine ⟨ha, hw, (consume_frame s).trans hf, ?_⟩
  cases he with
  | hangs waiting upc tr => exact .hangs waiting upc tr
  | done waiting upc tr written => exact .done waiting upc tr written

/-- Bytes are sent within the frame of as many primitives. -/
theorem sendBytes_frame : ∀ {bs : List Byte} {s t : State}, sendBytes bs s = .next t → IssueFrame bs.length [] s t
  | [], s, _, h => Host.Outcome.next.inj h ▸ IssueFrame.refl s
  | b :: bs, s, t, h => by
    obtain ⟨u, hu, ht⟩ := andThen_eq_next h
    have hb : IssueFrame 1 [] s u := (sendByte_effect hu).frame
    rw [List.length_cons, Nat.add_comm]
    unfold onReturn at ht
    split at ht
    · exact Host.Outcome.next.inj ht ▸ hb.mono (by omega) (List.nil_subset _)
    · exact hb.trans (sendBytes_frame ht)

/-- Bytes are received within the frame of as many primitives and of the RAW elements listed for them. -/
theorem receiveBytes_frame :
    ∀ {is : List (Fin 6)} {s t : State}, receiveBytes is s = .next t → IssueFrame is.length is s t
  | [], s, _, h => Host.Outcome.next.inj h ▸ IssueFrame.refl s
  | i :: is, s, t, h => by
    obtain ⟨u, hu, ht⟩ := andThen_eq_next h
    have hi : IssueFrame 1 [i] s u := (receiveByte_effect hu).frame
    rw [List.length_cons, Nat.add_comm]
    unfold onReturn at ht
    split at ht
    · exact Host.Outcome.next.inj ht ▸ hi.mono (by omega) (by simp)
    · exact hi.trans (receiveBytes_frame ht)

/-! ### What an instruction does -/

/-- The RAW elements an instruction may write (R138, log 14). -/
def rawTargets : Instr → List (Fin 6)
  | .rb i => (rawIndex i).toList
  | .resp _ _ _ => [0, 1, 2, 3, 4, 5]
  | .status _ => [0]
  | _ => []

/-- How a micro-operation takes the transport configuration further (R131 to R138). -/
def transportAfter : Instr → Transport → Transport
  | .saddr a, t => { t with addr := a }
  | .scnt n, t => { t with nbytes := n }
  | .srd, t => { t with mode := .read }
  | .swr, t => { t with mode := .write }
  | .start, t => { t with isOpen := true, xfer := 0#8 }
  | .stop, t => { t with isOpen := false }
  | .wb _, t | .rb _, t => { t with xfer := nextXfer t.xfer }
  | _, t => t

/-- How many primitives an instruction issues at most: one, but for the frames of several bytes (log 14). -/
def primitiveCount : Instr → Nat
  | .calinit | .trigger => 3
  | .resp _ _ _ => 6
  | _ => 1

theorem execRb_effect {i : BitVec 3} {s t : State} (h : execRb i s = .next t) :
    MicroEffect (rawTargets (.rb i)) (transportAfter (.rb i)) s t := by
  unfold execRb at h
  split at h
  · cases h
  · rename_i k hk
    simp only [rawTargets, hk, Option.toList_some]
    exact receiveByte_effect h

theorem exec_microOp_effect {i : Instr} {s t : State} (hm : i.isMicroOp = true) (he : i ≠ .endOp)
    (h : exec i s = .next t) : MicroEffect (rawTargets i) (transportAfter i) s t := by
  cases i with
  | saddr a => exact microStep_effect (writesOnly_of_transport fun _ => rfl) h
  | scnt n => exact microStep_effect (writesOnly_of_transport fun _ => rfl) h
  | srd => exact microStep_effect (writesOnly_of_transport fun _ => rfl) h
  | swr => exact microStep_effect (writesOnly_of_transport fun _ => rfl) h
  | start => exact microStep_effect (writesOnly_of_transport fun _ => rfl) h
  | stop => exact microStep_effect (writesOnly_of_transport fun _ => rfl) h
  | wb b => exact sendByte_effect h
  | rb i => exact execRb_effect h
  | dly n => exact microStep_effect (writesOnly_of_transport fun _ => rfl) h
  | endOp => exact absurd rfl he
  | init _ | read | getth | fmt _ | devAddr | calinit | trigger | resp _ _ _ | status _ => cases hm

/-- An instruction that issues primitives does so within its frame. -/
theorem exec_frame {i : Instr} {s t : State} (hi : i.issues = true) (h : exec i s = .next t) :
    IssueFrame (primitiveCount i) (rawTargets i) s t := by
  cases i with
  | devAddr =>
    exact (microStep_effect (writesOnly_of_transport (f := fun r => { r with addr := Config.devAddr })
      fun _ => rfl) h).frame
  | calinit => exact sendBytes_frame h
  | trigger => exact sendBytes_frame h
  | resp st hu te => exact (supply_frame _ s).trans (receiveBytes_frame h) |>.mono le_rfl (List.Subset.refl _)
  | status b => exact (supply_frame [b] s).trans (receiveByte_effect h).frame
  | saddr _ | scnt _ | srd | swr | start | stop | wb _ | rb _ | dly _ =>
    exact (exec_microOp_effect rfl (by simp) h).frame
  | init _ | read | getth | fmt _ | endOp => cases hi

/-- All that an instruction can do with a next state. -/
inductive ExecNext (s : State) : Instr → State → Prop where
  | init (b : BitVec 16) (idle : s.active = false) (unbound : s.bound = false) :
      ExecNext s (.init b) ((s.bind b).dispatch opInit initEntry)
  | read (idle : s.active = false) (bound : s.bound = true) : ExecNext s .read (s.dispatch opRead readEntry)
  | getth (idle : s.active = false) (bound : s.bound = true) : ExecNext s .getth (s.dispatch opGetth readEntry)
  | fmt (v : BitVec 16) (idle : s.active = false) : ExecNext s (.fmt v) (s.writeString (centiText v))
  | endGetth (active : s.active = true) (returned : s.waiting = false) (op : s.op = opGetth) :
      ExecNext s .endOp (convert s).finish
  | endOther (active : s.active = true) (returned : s.waiting = false) (op : s.op ≠ opGetth) :
      ExecNext s .endOp s.finish
  | issues {i : Instr} {t : State} (issues : i.issues = true)
      (frame : IssueFrame (primitiveCount i) (rawTargets i) s t) : ExecNext s i t

theorem execInit_eq_next {b : BitVec 16} {s t : State} (h : execInit b s = .next t) :
    s.active = false ∧ s.bound = false ∧ t = (s.bind b).dispatch opInit initEntry := by
  unfold execInit at h
  split at h
  · cases h
  · split at h
    · cases h
    · rename_i ha hb
      exact ⟨by simpa using ha, by simpa using hb, (Host.Outcome.next.inj h).symm⟩

theorem execFmt_eq_next {v : BitVec 16} {s t : State} (h : execFmt v s = .next t) :
    s.active = false ∧ t = s.writeString (centiText v) := by
  unfold execFmt at h
  split at h
  · cases h
  · rename_i ha
    exact ⟨by simpa using ha, (Host.Outcome.next.inj h).symm⟩

theorem execNext_of_exec {i : Instr} {s t : State} (h : exec i s = .next t) : ExecNext s i t := by
  cases i with
  | init b =>
    obtain ⟨ha, hb, rfl⟩ := execInit_eq_next h
    exact .init b ha hb
  | read =>
    obtain ⟨ha, hb, rfl⟩ := acceptMeasurement_eq_next h
    exact .read ha hb
  | getth =>
    obtain ⟨ha, hb, rfl⟩ := acceptMeasurement_eq_next h
    exact .getth ha hb
  | fmt v =>
    obtain ⟨ha, rfl⟩ := execFmt_eq_next h
    exact .fmt v ha
  | endOp =>
    obtain ⟨ha, hw, rfl⟩ := execEnd_eq_next h
    split
    · exact .endGetth ha hw ‹_›
    · exact .endOther ha hw ‹_›
  | saddr _ | scnt _ | srd | swr | start | stop | wb _ | rb _ | dly _ | devAddr | calinit | trigger | resp _ _ _
  | status _ => exact .issues rfl (exec_frame rfl h)

end Sys2Proof.Machine
end

section
/-! SUPPORT. Who writes each register (R23 to R37, R46, R75): one lemma per register over every instruction, and the
statements made of them. -/

namespace Sys2Proof.Machine

variable {i : Instr} {s t : State}

/-! ### The ROM -/

/-- R75: no instruction writes the ROM. -/
theorem exec_rom (h : exec i s = .next t) : t.rom = s.rom := by
  cases execNext_of_exec h with
  | issues hi hf => exact hf.rom
  | init | read | getth | fmt | endGetth | endOther => rfl

/-! ### RAW -/

theorem rawTargets_eq_nil (hrb : ∀ k : BitVec 3, i ≠ .rb k) (hresp : ∀ (st : Byte) (h r : BitVec 20), i ≠ .resp st h r)
    (hstatus : ∀ b : Byte, i ≠ .status b) : rawTargets i = [] := by
  cases i with
  | rb k => exact absurd rfl (hrb k)
  | resp st hu te => exact absurd rfl (hresp st hu te)
  | status b => exact absurd rfl (hstatus b)
  | _ => rfl

/-- RB names no element but its own. -/
theorem eq_of_mem_rawTargets_rb {k : BitVec 3} {j : Fin 6} (h : j ∈ rawTargets (.rb k)) : j.val = k.toNat := by
  rw [rawTargets, rawIndex, Option.mem_toList] at h
  split at h
  · rw [← Option.some.inj h]
  · cases h

/-- R23, log 14: an element of RAW that an instruction does not name stays. -/
theorem exec_raw (h : exec i s = .next t) {j : Fin 6} (hj : j ∉ rawTargets i) :
    t.raw[j] = s.raw[j] ∧ t.rawWritten[j] = s.rawWritten[j] := by
  cases execNext_of_exec h with
  | issues hi hf => exact ⟨hf.raw j hj, hf.rawWritten j hj⟩
  | init | read | getth | fmt | endGetth | endOther => exact ⟨rfl, rfl⟩

/-- A read of RAW answers alike in two states that agree on the element read. -/
theorem memRead_raw_congr {a : Nat} (h : ∀ j : Fin 6, j.val = a → t.raw[j] = s.raw[j]) :
    memRead .raw a t = memRead .raw a s := by
  by_cases ha : a < 6
  · have hraw : t.raw[a] = s.raw[a] := h ⟨a, ha⟩ rfl
    simp [memRead, ha, hraw]
  · rw [(memRead_eq_none .raw a t).mpr (Nat.le_of_not_lt ha), (memRead_eq_none .raw a s).mpr (Nat.le_of_not_lt ha)]

/-! ### The conversion results and the string -/

/-- R24 to R26, R35: only GETTH's END writes the results. -/
theorem exec_results (h : exec i s = .next t) (hi : ¬(i = .endOp ∧ s.op = opGetth)) :
    t.hraw = s.hraw ∧ t.traw = s.traw ∧ t.temp100 = s.temp100 ∧ t.humid100 = s.humid100 ∧ t.status = s.status ∧
      t.convWritten = s.convWritten := by
  cases execNext_of_exec h with
  | issues _ hf => exact ⟨hf.hraw, hf.traw, hf.temp100, hf.humid100, hf.status, hf.convWritten⟩
  | endGetth _ _ hop => exact absurd ⟨rfl, hop⟩ hi
  | init | read | getth | fmt | endOther => exact ⟨rfl, rfl, rfl, rfl, rfl, rfl⟩

/-- R27: only FMT writes the string. -/
theorem exec_string (h : exec i s = .next t) (hi : ∀ v : BitVec 16, i ≠ .fmt v) :
    t.str = s.str ∧ t.strlen = s.strlen ∧ t.strWritten = s.strWritten := by
  cases execNext_of_exec h with
  | issues _ hf => exact ⟨hf.str, hf.strlen, hf.strWritten⟩
  | fmt v => exact absurd rfl (hi v)
  | init | read | getth | endGetth | endOther => exact ⟨rfl, rfl, rfl⟩

/-! ### BUSSPEED, BOUND, OP, ACTIVE, UPC -/

/-- R32, R37: only INIT binds. -/
theorem exec_binding (h : exec i s = .next t) (hi : ∀ b : BitVec 16, i ≠ .init b) :
    t.busSpeed = s.busSpeed ∧ t.bound = s.bound := by
  cases execNext_of_exec h with
  | issues _ hf => exact ⟨hf.busSpeed, hf.bound⟩
  | init b => exact absurd rfl (hi b)
  | read | getth | fmt | endGetth | endOther => exact ⟨rfl, rfl⟩

/-- R32: nothing clears BOUND, INIT included. -/
theorem exec_bound_stays (h : exec i s = .next t) (hb : s.bound = true) : t.bound = true := by
  cases execNext_of_exec h with
  | init => rfl
  | issues _ hf => exact hf.bound.trans hb
  | read | getth | fmt | endGetth | endOther => exact hb

/-- R31: only the host's operations write OP. -/
theorem exec_op (h : exec i s = .next t) (hi : i.isHostOp = false) : t.op = s.op := by
  cases execNext_of_exec h with
  | issues _ hf => exact hf.op
  | init | read | getth | fmt => cases hi
  | endGetth | endOther => rfl

/-- R30: only the host's operations and END write ACTIVE. -/
theorem exec_active (h : exec i s = .next t) (hi : i.isHostOp = false) (he : i ≠ .endOp) : t.active = s.active := by
  cases execNext_of_exec h with
  | issues _ hf => exact hf.active
  | init | read | getth | fmt => cases hi
  | endGetth | endOther => exact absurd rfl he

/-- R29, R140, R230: FMT and END leave UPC. -/
theorem exec_upc (h : exec i s = .next t) (hi : (∃ v : BitVec 16, i = .fmt v) ∨ i = .endOp) : t.upc = s.upc := by
  cases execNext_of_exec h with
  | issues hissues _ => obtain ⟨v, rfl⟩ | rfl := hi <;> cases hissues
  | init | read | getth => obtain ⟨v, hv⟩ | hv := hi <;> cases hv
  | fmt | endGetth | endOther => rfl

/-! ### The transport, EV and the outstanding primitive -/

/-- R41, R46: an instruction that issues no primitive leaves the transport and the history. -/
theorem exec_bus (h : exec i s = .next t) (hi : i.issues = false) :
    t.tr = s.tr ∧ t.ev = s.ev ∧ t.waiting = s.waiting := by
  cases execNext_of_exec h with
  | issues hissues _ => exact absurd hissues (by simp [hi])
  | init | read | getth | fmt | endGetth | endOther => exact ⟨rfl, rfl, rfl⟩

/-- R46: EV is extended at its end, by the events of the primitives issued. -/
theorem exec_history (h : exec i s = .next t) :
    ∃ es : List Event, es.length ≤ primitiveCount i ∧ t.ev = s.ev ++ es := by
  cases execNext_of_exec h with
  | issues _ hf => exact hf.ev
  | init | read | getth | fmt | endGetth | endOther => exact ⟨[], Nat.zero_le _, (List.append_nil _).symm⟩

/-- Settles O39: each clause is the lemma of its register. -/
theorem registersChangeOnlyByTheirWriters : Obligations.RegistersChangeOnlyByTheirWriters := by
  intro i s t h
  refine ⟨fun a => ?rom, fun hrb hresp hstatus => ?raw, fun k hk a ha => ?rb, exec_results h, fun hi => ?str,
    exec_binding h, exec_op h, exec_active h, exec_upc h, exec_bus h⟩
  case rom => simp only [memRead, exec_rom h]
  case raw =>
    have hkept (j : Fin 6) := exec_raw h (j := j) (by simp [rawTargets_eq_nil hrb hresp hstatus])
    exact ⟨fun a => memRead_raw_congr fun j _ => (hkept j).1, Vector.ext fun j hj => (hkept ⟨j, hj⟩).2⟩
  case rb =>
    subst hk
    exact memRead_raw_congr fun j hj => (exec_raw h fun hm => ha (hj ▸ eq_of_mem_rawTargets_rb hm)).1
  case str =>
    obtain ⟨hstr, hlen, hwritten⟩ := exec_string h hi
    exact ⟨fun a => by simp only [memRead, hstr], hlen, hwritten⟩

/-! ### The history over a step -/

theorem except_map_eq_ok {α β ε : Type} {f : α → β} {x : Except ε α} {b : β} (h : x.map f = .ok b) :
    ∃ a, x = .ok a ∧ f a = b := by
  cases x with
  | error e => cases h
  | ok a => exact ⟨a, rfl, Except.ok.inj h⟩

/-- R92: what a host word decodes to is an operation of the host. -/
theorem isHostOp_of_decodeHop {hop : BitVec 8} {harg : BitVec 16} (h : decodeHop hop harg = .ok i) :
    i.isHostOp = true := by
  unfold decodeHop at h
  split at h
  case h_5 => cases h
  all_goals exact Except.ok.inj h ▸ rfl

/-- R98: what a ROM word decodes to is a micro-operation. -/
theorem isMicroOp_of_decodeKind {kind : BitVec 4} {uarg : BitVec 20} (h : decodeKind kind uarg = .ok i) :
    i.isMicroOp = true := by
  unfold decodeKind at h
  split at h
  case h_9 => exact Except.ok.inj h ▸ rfl
  case h_11 => cases h
  all_goals
    obtain ⟨_, _, rfl⟩ := except_map_eq_ok h
    rfl

theorem primitiveCount_of_isHostOp (h : i.isHostOp = true) : primitiveCount i = 1 := by
  cases i with
  | init | read | getth | fmt => rfl
  | _ => cases h

theorem primitiveCount_of_isMicroOp (h : i.isMicroOp = true) : primitiveCount i = 1 := by
  cases i with
  | init | read | getth | fmt | devAddr | calinit | trigger | resp | status => cases h
  | _ => rfl

/-- Fetching takes a word from where it was presented and changes nothing else. -/
theorem fetch_keeps {w : Encoded} (h : fetch s = some (w, t)) : t = { s with wire := t.wire, hostq := t.hostq } := by
  unfold fetch at h
  split at h
  · cases h; rfl
  · split at h
    · cases h; rfl
    · split at h <;> cases h
      rfl

/-- Where no frame is presented whole, the fetched word issues one primitive at most. -/
theorem primitiveCount_of_fetch {w : Encoded} (hw : s.wire = []) (hf : fetch s = some (w, t)) (hd : decode w = .ok i) :
    primitiveCount i = 1 := by
  unfold fetch at hf
  simp only [hw] at hf
  split at hf
  · cases hf
    exact primitiveCount_of_isMicroOp (isMicroOp_of_decodeKind hd)
  · split at hf <;> cases hf
    exact primitiveCount_of_isHostOp (isHostOp_of_decodeHop hd)

/-- Settles O40: an idle step changes nothing, and any other is that of the fetched instruction. -/
theorem boundStaysAndHistoryGrows : Obligations.BoundStaysAndHistoryGrows := by
  intro s t h
  obtain ⟨_, hs⟩ | ⟨_, _, hs⟩ | ⟨_, w, s1, i, hf, hd, hs⟩ | ⟨_, w, s1, e, _, _, hs⟩ := step_cases s <;> rw [hs] at h
  case inr.inl => exact Host.Outcome.next.inj h ▸ ⟨id, [], by simp⟩
  case inr.inr.inl =>
    have hs1 := fetch_keeps hf
    have hbound : s1.bound = s.bound := by rw [hs1]
    have hev : s1.ev = s.ev := by rw [hs1]
    obtain ⟨es, hlen, hes⟩ := exec_history h
    exact ⟨fun hb => exec_bound_stays h (hbound.trans hb), es, hev ▸ hes,
      fun hw => primitiveCount_of_fetch hw hf hd ▸ hlen⟩
  all_goals cases h

end Sys2Proof.Machine
end

section
/-! SUPPORT. The small rules of the state: the counters, the status wires, the string FMT writes, and what the host may
read; with the statements made of them. -/

namespace Sys2Proof.Machine

/-! ### Counters (R29, R41) -/

theorem nextUpc_toNat {u : BitVec 5} (h : u.toNat < 31) : (nextUpc u).toNat = u.toNat + 1 := by
  have hne : u ≠ 31#5 := fun e => by simp [e] at h
  rw [nextUpc_of_ne hne]
  exact BitVec.toNat_add_of_lt (Nat.succ_lt_succ h)

theorem nextXfer_toNat {x : BitVec 8} (h : x.toNat < 255) : (nextXfer x).toNat = x.toNat + 1 := by
  have hne : x ≠ 255#8 := fun e => by simp [e] at h
  rw [nextXfer_of_ne hne]
  exact BitVec.toNat_add_of_lt (Nat.succ_lt_succ h)

/-- R29: at 31 the counter wraps or stays, as the implementer chose. -/
theorem nextUpc_last : nextUpc 31#5 = 0#5 ∨ nextUpc 31#5 = 31#5 := by
  rw [nextUpc, if_pos rfl]
  exact ite_eq_or_eq _ _ _

/-- Settles O13. -/
theorem countersAdvanceByOne : Obligations.CountersAdvanceByOne :=
  ⟨fun _ h => nextUpc_toNat h, nextUpc_last, fun _ h => nextXfer_toNat h⟩

/-! ### The status wires (R36) -/

/-- Bit 7 is the sign bit: set from 128 on. -/
theorem busyBit_eq_decide (b : Byte) : busyBit b = decide (128 ≤ b.toNat) :=
  (BitVec.msb_eq_getLsbD_last b).symm.trans (BitVec.msb_eq_decide b)

/-- Bit 3 is the upper half of the low digit. -/
theorem calBit_eq_decide (b : Byte) : calBit b = decide (8 ≤ b.toNat % 16) := by
  rw [calBit, BitVec.getLsbD, Nat.testBit_eq_decide_div_mod_eq]
  exact decide_eq_decide.mpr (by omega)

/-- Settles O48: the two named values lie where the bits' ranges say. -/
theorem statusWiresAtTheNamedValues : Obligations.StatusWiresAtTheNamedValues := by
  intro s
  have hbusy : stBusy s = decide (128 ≤ s.status.toNat) := busyBit_eq_decide s.status
  have hcal : stCal s = decide (8 ≤ s.status.toNat % 16) := calBit_eq_decide s.status
  refine ⟨fun h => ?_, fun h => ?_, hbusy, hcal⟩ <;> rw [hbusy, hcal, h] <;> decide

/-! ### The string (R220 to R226) -/

theorem wholeDigits_length (w : Nat) : 1 ≤ (wholeDigits w).length ∧ (wholeDigits w).length ≤ 3 := by
  unfold wholeDigits
  split
  · simp
  · split <;> simp

theorem signText_length (v : BitVec 16) : (signText v).length ≤ 1 := by
  unfold signText
  split <;> simp

/-- R226: sign, one to three digits, point and one digit. -/
theorem centiText_length (v : BitVec 16) : 3 ≤ (centiText v).length ∧ (centiText v).length ≤ 6 := by
  have hsign := signText_length v
  have hdigits := wholeDigits_length (tenths v).1
  simp only [centiText, List.length_append, List.length_map, List.length_cons, List.length_nil]
  omega

theorem writeString_strlen_toNat {cs : List Byte} (s : State) (h : cs.length < 8) :
    (s.writeString cs).strlen.toNat = cs.length := by
  rw [State.writeString_strlen, BitVec.toNat_ofNat]
  exact Nat.mod_eq_of_lt h

/-- The terminator stands right behind the text. -/
theorem writeString_terminator {cs : List Byte} (s : State) (h : cs.length < 7) :
    (s.writeString cs).str[cs.length]? = some 0x00#8 := by
  simp [h]

/-- Above the terminator STR holds free values (U5, log 9). -/
theorem writeString_above {cs : List Byte} (s : State) {j : Fin 7} (h : cs.length < j.val) :
    (s.writeString cs).str[j] = Config.freeByte (s.frees + j.val) := by
  have hnone : (cs ++ [0x00#8])[j.val]? = none := List.getElem?_eq_none (by simpa using h)
  simp [hnone]

/-! ### Host reads (R21, R260) -/

theorem hostRead_busy {r : ResultReg} {s : State} (h : s.active = true) : hostRead r s = .error .busy := by
  simp [hostRead, h]

theorem hostRead_noValue {r : ResultReg} {s : State} (ha : s.active = false) (hv : holdsValue r s = false) :
    hostRead r s = .error .noValue := by
  simp [hostRead, ha, hv]

theorem hostRead_value {r : ResultReg} {s : State} (ha : s.active = false) (hv : holdsValue r s = true) :
    hostRead r s = .ok (resultBits r s) := by
  simp [hostRead, ha, hv]

/-- R47: at reset no register holds a value. -/
theorem holdsValue_reset (r : ResultReg) : holdsValue r State.reset = false := by
  cases r with
  | raw i => exact Vector.getElem_replicate i.isLt
  | hraw | traw | temp100 | humid100 | status | stBusy | stCal | str | strlen => rfl

/-- Settles O56. -/
theorem nothingIsReadableAfterReset : Obligations.NothingIsReadableAfterReset :=
  fun r => hostRead_noValue rfl (holdsValue_reset r)

/-- Settles O57: FMT leaves the block idle with STR and STRLEN written, and free values above the terminator. -/
theorem stringIsReadableAfterFmt : Obligations.StringIsReadableAfterFmt := by
  intro s t v h
  obtain ⟨hidle, rfl⟩ := execFmt_eq_next h
  have hlen := writeString_strlen_toNat s (Nat.lt_of_le_of_lt (centiText_length v).2 (by decide : 6 < 8))
  refine ⟨fun j _ => hostRead_value hidle rfl, fun j hj => ?_, hostRead_value hidle rfl⟩
  rw [← writeString_above s (hlen ▸ hj)]
  exact hostRead_value hidle rfl

end Sys2Proof.Machine
end

section
/-! SUPPORT. The transport along the two micro-programs: what each ROM index asks of it is what the index before left. -/

namespace Sys2Proof.Machine

/-! ### The transport along the programs (R161, R166) -/

theorem movedAt_succ {u : Nat} (hu : inTransfer u = true) (hv : inTransfer (u + 1) = true) :
    movedAt (u + 1) = movedAt u + 1 ∧ movedAt u < 255 := by
  simp only [inTransfer, Bool.or_eq_true, decide_eq_true_eq] at hu hv
  unfold movedAt
  split_ifs <;> omega

/-- A byte more inside a transaction. -/
theorem xfer_next {u : Nat} {x : BitVec 8} (hu : inTransfer u = true) (hv : inTransfer (u + 1) = true)
    (hx : x.toNat = movedAt u) : (nextXfer x).toNat = movedAt (u + 1) := by
  obtain ⟨hmoved, hlt⟩ := movedAt_succ hu hv
  rw [nextXfer_toNat (hx ▸ hlt), hx, hmoved]

namespace InitTransport

variable {u : Nat} {r : Transport}

theorem saddr (_ : InitTransport 0 r) : InitTransport 1 { r with addr := 0x38#7 } := by
  constructor <;> simp [inTransfer]

theorem scnt (h : InitTransport 1 r) : InitTransport 2 { r with nbytes := 3#8 } := by
  constructor <;> simp [inTransfer, h.addr]

theorem swr (h : InitTransport 2 r) : InitTransport 3 { r with mode := .write } := by
  constructor <;> simp [inTransfer, h.addr, h.nbytes]

theorem start (h : InitTransport 3 r) : InitTransport 4 { r with isOpen := true, xfer := 0#8 } := by
  constructor <;> simp [inTransfer, movedAt, h.addr, h.nbytes, h.mode]

theorem transfer (h : InitTransport u r) (h4 : 4 ≤ u) (hu : inTransfer u = true) (hv : inTransfer (u + 1) = true) :
    InitTransport (u + 1) { r with xfer := nextXfer r.xfer } where
  addr _ := h.addr (by omega)
  nbytes _ := h.nbytes (by omega)
  mode _ := h.mode (by omega)
  isOpen _ := (h.isOpen h4).trans (hu.trans hv.symm)
  xfer _ := xfer_next hu hv (h.xfer hu)

theorem stop (h : InitTransport 7 r) : InitTransport 8 { r with isOpen := false } := by
  constructor <;> simp [inTransfer, h.addr, h.nbytes, h.mode]

theorem delay (h : InitTransport 8 r) : InitTransport 9 r := by
  constructor <;> simp [inTransfer, h.addr, h.nbytes, h.mode, h.isOpen]

/-- R161: each micro-operation of INIT takes the transport from what its index asks to what the next one does. -/
theorem next (d : Delays) :
    ∀ u : Nat, u < 9 → InitTransport u r → InitTransport (u + 1) (transportAfter (programAt d u) r)
  | 0, _, h => h.saddr
  | 1, _, h => h.scnt
  | 2, _, h => h.swr
  | 3, _, h => h.start
  | 4, _, h | 5, _, h | 6, _, h => h.transfer (by decide) rfl rfl
  | 7, _, h => h.stop
  | 8, _, h => h.delay
  | u + 9, hu, _ => absurd hu (by omega)

/-- R41: what INIT leaves at its END. -/
theorem idle (h : InitTransport 9 r) : IdleTransport r where
  addr := h.addr (by decide)
  nbytes := .inl (h.nbytes (by decide))
  mode := h.mode (by decide)
  isOpen := h.isOpen (by decide)

end InitTransport

namespace ReadTransport

variable {u v : Nat} {r r' : Transport}

/-- Configuration and delays, with no transaction open before or after. -/
theorem outside (h : ReadTransport u r) (hu : inTransfer u = false) (hv : inTransfer v = false)
    (haddr : r'.addr = r.addr) (hopen : r'.isOpen = r.isOpen) (hmode : r'.mode = modeAt v)
    (hnbytes : r'.nbytes = if v ≤ 18 then 3#8 else 6#8) : ReadTransport v r' where
  addr := haddr.trans h.addr
  nbytes _ := hnbytes
  mode := hmode
  isOpen := hopen.trans (h.isOpen.trans (hu.trans hv.symm))
  xfer hx := by simp [hv] at hx

theorem start (h : ReadTransport u r) (h11 : 11 ≤ u) (hu : inTransfer u = false) (hv : inTransfer (u + 1) = true) :
    ReadTransport (u + 1) { r with isOpen := true, xfer := 0#8 } := by
  obtain rfl | rfl : u = 12 ∨ u = 20 := by
    simp only [inTransfer, Bool.or_eq_false_iff, Bool.or_eq_true, decide_eq_false_iff_not, decide_eq_true_eq] at hu hv
    omega
  all_goals exact ⟨h.addr, fun _ => h.nbytes h11, h.mode, rfl, fun _ => rfl⟩

theorem transfer (h : ReadTransport u r) (h13 : 13 ≤ u) (hu : inTransfer u = true) (hv : inTransfer (u + 1) = true) :
    ReadTransport (u + 1) { r with xfer := nextXfer r.xfer } := by
  have hrange : (13 ≤ u ∧ u ≤ 15) ∨ (21 ≤ u ∧ u ≤ 26) := by
    simp only [inTransfer, Bool.or_eq_true, decide_eq_true_eq] at hu hv
    omega
  refine ⟨h.addr, fun _ => ?_, ?_, h.isOpen.trans (hu.trans hv.symm), fun _ => xfer_next hu hv (h.xfer hu)⟩
  · rw [h.nbytes (by omega)]
    exact if_congr (by omega) rfl rfl
  · rw [h.mode]
    exact if_congr (by omega) rfl rfl

/-- R166: each micro-operation of READ takes the transport from what its index asks to what the next one does. -/
theorem next (d : Delays) : ∀ u : Nat, 10 ≤ u → u < 30 → ReadTransport u r →
    ReadTransport (u + 1) (transportAfter (programAt d u) r)
  | 10, _, _, h | 18, _, _, h => h.outside rfl rfl rfl rfl h.mode rfl
  | 11, _, _, h | 19, _, _, h | 28, _, _, h => h.outside rfl rfl rfl rfl rfl (h.nbytes (by decide))
  | 12, _, _, h | 20, _, _, h => h.start (by decide) rfl rfl
  | 13, _, _, h | 14, _, _, h | 15, _, _, h => h.transfer (by decide) rfl rfl
  | 21, _, _, h | 22, _, _, h | 23, _, _, h | 24, _, _, h | 25, _, _, h | 26, _, _, h =>
    h.transfer (by decide) rfl rfl
  | 16, _, _, h | 27, _, _, h =>
    ⟨h.addr, fun _ => h.nbytes (by decide), h.mode, rfl, fun hx => absurd hx (by decide)⟩
  | 17, _, _, h | 29, _, _, h => h.outside rfl rfl rfl rfl h.mode (h.nbytes (by decide))
  | 0, hu, _, _ | 1, hu, _, _ | 2, hu, _, _ | 3, hu, _, _ | 4, hu, _, _ | 5, hu, _, _ | 6, hu, _, _ | 7, hu, _, _
  | 8, hu, _, _ | 9, hu, _, _ => absurd hu (by decide)
  | u + 30, _, hu, _ => absurd hu (by omega)

/-- R41: what READ and GETTH leave at their END. -/
theorem idle (h : ReadTransport 30 r) : IdleTransport r where
  addr := h.addr
  nbytes := .inr (h.nbytes (by decide))
  mode := h.mode
  isOpen := h.isOpen

end ReadTransport

/-- R41, R165: READ and GETTH start where the operation before has left the transport. -/
theorem IdleTransport.readEntry {r : Transport} (h : IdleTransport r) : ReadTransport 10 r where
  addr := h.addr
  nbytes hu := absurd hu (by decide)
  mode := h.mode
  isOpen := h.isOpen
  xfer hx := absurd hx (by decide)

end Sys2Proof.Machine
end

section
/-! SUPPORT. The invariant of the two micro-programs over each kind of instruction and over the step; at reset, and what it
lets the host read after GETTH. -/

namespace Sys2Proof.Machine

/-! ### Where the programs stand (R100) -/

/-- UPC stands at a micro-operation of the programs that is not an END. -/
def BeforeEnd (u : Nat) : Prop := u < 9 ∨ (10 ≤ u ∧ u < 30)

theorem programAt_microOp (d : Delays) {u : Nat} (hu : BeforeEnd u) :
    (programAt d u).isMicroOp = true ∧ programAt d u ≠ .endOp := by
  obtain hu | ⟨h10, h30⟩ := hu
  · interval_cases u <;> exact ⟨rfl, nofun⟩
  · interval_cases u <;> exact ⟨rfl, nofun⟩

/-- R138: ROM word 21 + j reads RAW[j]. -/
theorem mem_rawTargets_programAt (d : Delays) (j : Fin 6) : j ∈ rawTargets (programAt d (21 + j.val)) := by
  fin_cases j <;> exact List.mem_singleton.mpr rfl

theorem ne_opInit {o : BitVec 2} (h : o = opRead ∨ o = opGetth) : o ≠ opInit := by
  obtain rfl | rfl := h <;> decide

/-- R62: what is not before an END is one. -/
theorem InProgram.beforeEnd_or {o : BitVec 2} {u : BitVec 5} (h : InProgram o u) :
    BeforeEnd u.toNat ∨ (o = opInit ∧ u.toNat = 9) ∨ (o ≠ opInit ∧ u.toNat = 30) := by
  unfold BeforeEnd
  obtain ⟨ho, hu⟩ | ⟨ho, hu, hu'⟩ := h
  · by_cases h9 : u.toNat = 9
    · exact .inr (.inl ⟨ho, h9⟩)
    · exact .inl (.inl (by omega))
  · by_cases h30 : u.toNat = 30
    · exact .inr (.inr ⟨ne_opInit ho, h30⟩)
    · exact .inl (.inr (by omega))

theorem InProgram.le_30 {o : BitVec 2} {u : BitVec 5} (h : InProgram o u) : u.toNat ≤ 30 := by
  obtain ⟨_, hu⟩ | ⟨_, _, hu⟩ := h <;> omega

/-- R29: a micro-operation before an END stays in its program. -/
theorem InProgram.next {o : BitVec 2} {u v : BitVec 5} (h : InProgram o u) (hu : BeforeEnd u.toNat)
    (hv : v.toNat = u.toNat + 1) : InProgram o v := by
  unfold BeforeEnd at hu
  obtain ⟨ho, h9⟩ | ⟨ho, h10, h30⟩ := h
  · exact .inl ⟨ho, by omega⟩
  · exact .inr ⟨ho, by omega, by omega⟩

/-- INIT's words before its END are 0 to 8. -/
theorem InProgram.lt_9 {o : BitVec 2} {u : BitVec 5} (h : InProgram o u) (hu : BeforeEnd u.toNat) (ho : o = opInit) :
    u.toNat < 9 := by
  unfold BeforeEnd at hu
  obtain ⟨_, h9⟩ | ⟨hr, _⟩ := h
  · omega
  · exact absurd ho (ne_opInit hr)

/-- READ's words before its END are 10 to 29. -/
theorem InProgram.range_10_30 {o : BitVec 2} {u : BitVec 5} (h : InProgram o u) (hu : BeforeEnd u.toNat)
    (ho : o ≠ opInit) : 10 ≤ u.toNat ∧ u.toNat < 30 := by
  unfold BeforeEnd at hu
  obtain ⟨hi, _⟩ | ⟨_, h10, h30⟩ := h
  · exact absurd hi ho
  · omega

namespace Inv

variable {d : Delays} {s t : State}

/-! ### The invariant over the micro-operations -/

/-- The invariant over anything that stays in the frame of a running micro-operation and leaves the program, the transport
and RAW as the next index asks. -/
theorem of_frame {n : Nat} {is : List (Fin 6)} (h : Inv d s) (hf : IssueFrame n is s t) (ha : s.active = true)
    (hprogram : InProgram s.op t.upc) (hinit : s.op = opInit → InitTransport t.upc.toNat t.tr)
    (hread : s.op ≠ opInit → ReadTransport t.upc.toNat t.tr)
    (hraw : s.op ≠ opInit → ∀ j : Fin 6, 21 + j.val < t.upc.toNat → t.rawWritten[j] = true) : Inv d t where
  rom := hf.rom.trans h.rom
  wire := hf.wire.trans h.wire
  waiting _ := hf.active.trans ha
  bound _ := hf.bound.trans (h.bound ha)
  program _ := hf.op ▸ hprogram
  initTransport _ ho := hinit (hf.op ▸ ho)
  readTransport _ ho := hread (hf.op ▸ ho)
  idleTransport hi := absurd (hf.active.symm.trans hi) (by simp [ha])
  rawFilled _ ho := hraw (hf.op ▸ ho)
  convRaw hc j := hf.rawStays j (h.convRaw (hf.convWritten ▸ hc) j)
  results hc := by
    rw [hf.temp100, hf.traw, hf.humid100, hf.hraw]
    exact h.results (hf.convWritten ▸ hc)
  string hw := by
    rw [hf.strlen, hf.str]
    exact h.string (hf.strWritten ▸ hw)

/-- R131 to R139: a micro-operation before an END, whether its primitive returns or not. -/
theorem microOp (h : Inv d s) (hu : BeforeEnd s.upc.toNat)
    (he : MicroEffect (rawTargets (programAt d s.upc.toNat)) (transportAfter (programAt d s.upc.toNat)) s t) :
    Inv d t := by
  obtain ⟨ha, _, hf, hend⟩ := he
  have hprogram := h.program ha
  cases hend with
  | hangs _ hupc htr =>
    refine h.of_frame hf ha (hupc ▸ hprogram) (fun ho => ?_) (fun ho => ?_) fun ho j hj => ?_
    · rw [hupc, htr]
      exact h.initTransport ha ho
    · rw [hupc, htr]
      exact h.readTransport ha ho
    · exact hf.rawStays j (h.rawFilled ha ho j (hupc ▸ hj))
  | done _ hupc htr hwritten =>
    have hnext : t.upc.toNat = s.upc.toNat + 1 := by
      rw [hupc]
      exact nextUpc_toNat (Nat.lt_succ_of_le hprogram.le_30)
    refine h.of_frame hf ha (hprogram.next hu hnext) (fun ho => ?_) (fun ho => ?_) fun ho j hj => ?_
    · rw [hnext, htr]
      exact .next d _ (hprogram.lt_9 hu ho) (h.initTransport ha ho)
    · rw [hnext, htr]
      obtain ⟨h10, h30⟩ := hprogram.range_10_30 hu ho
      exact .next d _ h10 h30 (h.readTransport ha ho)
    · obtain hlt | heq := Nat.lt_or_eq_of_le (Nat.le_of_lt_succ (hnext ▸ hj))
      · exact hf.rawStays j (h.rawFilled ha ho j hlt)
      · exact hwritten j (heq ▸ mem_rawTargets_programAt d j)

/-! ### The invariant over END (R140) -/

theorem finish (h : Inv d s) (hw : s.waiting = false) (hidle : IdleTransport s.tr) : Inv d s.finish where
  rom := h.rom
  wire := h.wire
  waiting hw' := absurd (hw.symm.trans hw') (by decide)
  bound ha := nomatch ha
  program ha := nomatch ha
  initTransport ha := nomatch ha
  readTransport ha := nomatch ha
  idleTransport _ _ := hidle
  rawFilled ha := nomatch ha
  convRaw := h.convRaw
  results := h.results
  string := h.string

/-- R191: the results of a filled RAW belong to its raw fields. -/
theorem convert (h : Inv d s) (hraw : ∀ j : Fin 6, s.rawWritten[j] = true) : Inv d (convert s) where
  rom := h.rom
  wire := h.wire
  waiting := h.waiting
  bound := h.bound
  program := h.program
  initTransport := h.initTransport
  readTransport := h.readTransport
  idleTransport := h.idleTransport
  rawFilled := h.rawFilled
  convRaw _ := hraw
  results _ := ⟨rfl, rfl⟩
  string := h.string

/-- R166: at READ's END all of RAW holds values. -/
theorem raw_filled_at_end (h : Inv d s) (ha : s.active = true) (ho : s.op ≠ opInit) (hu : s.upc.toNat = 30) (j : Fin 6) :
    s.rawWritten[j] = true := h.rawFilled ha ho j (by omega)

theorem endOp (h : Inv d s) (hu : (s.op = opInit ∧ s.upc.toNat = 9) ∨ (s.op ≠ opInit ∧ s.upc.toNat = 30))
    (he : exec .endOp s = .next t) : Inv d t := by
  obtain ⟨ha, hw, rfl⟩ := execEnd_eq_next he
  have hidle : IdleTransport s.tr := by
    obtain ⟨ho, hu⟩ | ⟨ho, hu⟩ := hu
    · exact (hu ▸ h.initTransport ha ho).idle
    · exact (hu ▸ h.readTransport ha ho).idle
  split
  · next hgetth =>
    obtain ⟨ho, _⟩ | ⟨ho, hu⟩ := hu
    · exact absurd (hgetth.symm.trans ho) (by decide)
    · exact (h.convert (h.raw_filled_at_end ha ho hu)).finish hw hidle
  · exact h.finish hw hidle

/-- A running micro-program keeps the invariant, whatever word it stands at. -/
theorem execProgram (h : Inv d s) (ha : s.active = true) (he : exec (programAt d s.upc.toNat) s = .next t) :
    Inv d t := by
  obtain hu | hu := (h.program ha).beforeEnd_or
  · obtain ⟨hm, hne⟩ := programAt_microOp d hu
    exact h.microOp hu (exec_microOp_effect hm hne he)
  · have hend : programAt d s.upc.toNat = .endOp := by
      obtain ⟨_, hu⟩ | ⟨_, hu⟩ := hu <;> rw [hu] <;> rfl
    exact h.endOp hu (hend ▸ he)

/-! ### The invariant over the host's operations -/

theorem not_waiting_of_idle (h : Inv d s) (ha : s.active = false) : s.waiting = false := by
  by_contra hw
  exact absurd (h.waiting (by simpa using hw)) (by simp [ha])

/-- R160: INIT starts its program in an unbound block, whatever the transport was left in. -/
theorem acceptInit (h : Inv d s) (b : BitVec 16) : Inv d ((s.bind b).dispatch opInit initEntry) where
  rom := h.rom
  wire := h.wire
  waiting _ := rfl
  bound _ := rfl
  program _ := .inl ⟨rfl, (by decide : initEntry.toNat ≤ 9)⟩
  initTransport _ _ := by constructor <;> simp [initEntry, inTransfer]
  readTransport _ ho := absurd rfl ho
  idleTransport ha := nomatch ha
  rawFilled _ ho := absurd rfl ho
  convRaw := h.convRaw
  results := h.results
  string := h.string

/-- R165, R190: READ and GETTH start the same program, in a bound block. -/
theorem acceptMeasurement (h : Inv d s) (ha : s.active = false) (hb : s.bound = true) {o : BitVec 2}
    (ho : o = opRead ∨ o = opGetth) : Inv d (s.dispatch o readEntry) where
  rom := h.rom
  wire := h.wire
  waiting _ := rfl
  bound _ := hb
  program _ := .inr ⟨ho, (by decide : 10 ≤ readEntry.toNat), (by decide : readEntry.toNat ≤ 30)⟩
  initTransport _ hi := absurd hi (ne_opInit ho)
  readTransport _ _ := (h.idleTransport ha hb).readEntry
  idleTransport hi := nomatch hi
  rawFilled _ _ j hj := absurd hj (by simp [readEntry]; omega)
  convRaw := h.convRaw
  results := h.results
  string := h.string

/-- R226: FMT leaves a terminated string of 3 to 6 characters. -/
theorem format (h : Inv d s) (v : BitVec 16) : Inv d (s.writeString (centiText v)) where
  rom := h.rom
  wire := h.wire
  waiting := h.waiting
  bound := h.bound
  program := h.program
  initTransport := h.initTransport
  readTransport := h.readTransport
  idleTransport := h.idleTransport
  rawFilled := h.rawFilled
  convRaw := h.convRaw
  results := h.results
  string _ := by
    obtain ⟨h3, h6⟩ := centiText_length v
    rw [writeString_strlen_toNat s (by omega)]
    exact ⟨h3, h6, writeString_terminator s (by omega)⟩

/-- An accepted operation of the host keeps the invariant. -/
theorem execHostOp {i : Instr} (h : Inv d s) (hi : i.isHostOp = true) (he : exec i s = .next t) : Inv d t := by
  cases execNext_of_exec he with
  | init b => exact h.acceptInit b
  | read ha hb => exact h.acceptMeasurement ha hb (.inl rfl)
  | getth ha hb => exact h.acceptMeasurement ha hb (.inr rfl)
  | fmt v => exact h.format v
  | endGetth | endOther => cases hi
  | issues hissues _ => simp [Instr.issues, hi] at hissues

/-- The host's words still to come are no part of the invariant. -/
theorem with_hostq (h : Inv d s) (q : List Word24) : Inv d { s with hostq := q } :=
  ⟨h.rom, h.wire, h.waiting, h.bound, h.program, h.initTransport, h.readTransport, h.idleTransport, h.rawFilled,
    h.convRaw, h.results, h.string⟩

end Inv

/-! ### The invariant over the step -/

/-- A step that answers a next state found the block waiting for nothing. -/
theorem returned_of_step {s t : State} (h : step s = .next t) : s.waiting = false := by
  by_contra hw
  rw [step_waiting (by simpa using hw)] at h
  cases h

/-- R256: all that a step of an idle block can do with a next state, where no frame is presented whole. -/
theorem step_idle_cases {s t : State} (hw : s.wire = []) (ha : s.active = false) (h : step s = .next t) :
    t = s ∨ ∃ w rest i, s.hostq = w :: rest ∧ decode (.h24 w) = .ok i ∧ exec i { s with hostq := rest } = .next t := by
  have hn := returned_of_step h
  cases hq : s.hostq with
  | nil =>
    simp only [step, hn, fetch_idle hw ha hq] at h
    exact .inl (Host.Outcome.next.inj h).symm
  | cons w rest =>
    cases hd : decode (.h24 w) with
    | error e => simp [step, hn, fetch_host hw ha hq, hd] at h
    | ok i =>
      rw [step_of_fetch hn (fetch_host hw ha hq) hd] at h
      exact .inr ⟨w, rest, i, rfl, hd, h⟩

/-- Settles O35: a running block steps along its micro-program, an idle one by an operation of the host. -/
theorem everyStepKeepsTheInvariant : Obligations.EveryStepKeepsTheInvariant := by
  intro d s t h hstep
  cases ha : s.active with
  | true =>
    have hle := (h.program ha).le_30
    rw [step_programAt h.rom h.wire ha (returned_of_step hstep) hle] at hstep
    exact h.execProgram ha hstep
  | false =>
    obtain rfl | ⟨w, rest, i, _, hd, he⟩ := step_idle_cases h.wire ha hstep
    · exact h
    · exact (h.with_hostq rest).execHostOp (isHostOp_of_decodeHop hd) he

/-! ### Reset, and reads after GETTH -/

theorem inv_reset : Inv Config.defaultDelays State.reset where
  rom := rfl
  wire := rfl
  waiting hw := nomatch hw
  bound ha := nomatch ha
  program ha := nomatch ha
  initTransport ha := nomatch ha
  readTransport ha := nomatch ha
  idleTransport _ hb := nomatch hb
  rawFilled ha := nomatch ha
  convRaw hc := nomatch hc
  results hc := nomatch hc
  string hs := nomatch hs

/-- R47: the monitor that has seen nothing accepts the empty history. -/
theorem busInv_reset : BusInv State.reset :=
  ⟨Monitor.fresh, rfl, fun _ => ⟨rfl, nofun, nofun⟩⟩

/-- Settles O34. -/
theorem resetHasTheInvariants : Obligations.ResetHasTheInvariants :=
  ⟨inv_reset, busInv_reset, rfl, rfl, rfl⟩

/-- R190: the step from GETTH's END is the conversion, and the block is idle after it. -/
theorem step_getth_end {d : Delays} {s t : State} (h : Inv d s) (hu : s.upc = 30#5) (ha : s.active = true)
    (ho : s.op = opGetth) (hstep : step s = .next t) : t = (convert s).finish := by
  have hn := returned_of_step hstep
  rw [step_programAt h.rom h.wire ha hn (h.program ha).le_30, hu] at hstep
  obtain ⟨_, _, rfl⟩ := execEnd_eq_next (s := s) hstep
  exact if_pos ho

/-- Settles O58: END leaves the block idle, its results written, and RAW was filled before. -/
theorem resultsAreReadableAfterGetth : Obligations.ResultsAreReadableAfterGetth := by
  refine ⟨fun d s t h hu ha ho hstep => ?_, fun r s ha => hostRead_busy ha⟩
  have hraw := h.raw_filled_at_end ha (by rw [ho]; decide) (by rw [hu]; rfl)
  rw [step_getth_end h hu ha ho hstep]
  exact ⟨hostRead_value rfl rfl, hostRead_value rfl rfl, hostRead_value rfl rfl, hostRead_value rfl rfl,
    hostRead_value rfl rfl, fun j => hostRead_value rfl (hraw j)⟩

end Sys2Proof.Machine
end

section
/-! SUPPORT. The decoder beside the encoder: which words decode to an instruction, on each interface, and the statements
about encodings. -/

namespace Sys2Proof.Laws

open Sys2Proof.Machine

/-! ### Parts of a word -/

theorem extractLsb'_toNat_eq_div {w : Nat} (x : BitVec w) (k n : Nat) :
    (x.extractLsb' k n).toNat = x.toNat / 2 ^ k % 2 ^ n := by
  rw [BitVec.extractLsb'_toNat, Nat.shiftRight_eq_div_pow]

/-- Two words are equal when they are above bit `n` and below it. -/
theorem eq_iff_parts {w n m : Nat} (hw : n + m = w) (u v : BitVec w) :
    u = v ↔ u.extractLsb' n m = v.extractLsb' n m ∧ u.extractLsb' 0 n = v.extractLsb' 0 n := by
  refine ⟨fun h => by simp [h], fun ⟨hhigh, hlow⟩ => BitVec.eq_of_getLsbD_eq fun i hi => ?_⟩
  by_cases hin : i < n
  · simpa [BitVec.getLsbD_extractLsb', hin] using congrArg (·.getLsbD i) hlow
  · have him : i - n < m := by omega
    have hni : n + (i - n) = i := by omega
    simpa [BitVec.getLsbD_extractLsb', him, hni] using congrArg (·.getLsbD (i - n)) hhigh

/-- A word is a zero-extended operand of `n` bits exactly when the `m` bits above it are zero. -/
theorem eq_setWidth_iff {w n m : Nat} (hw : n + m = w) (u : BitVec w) (x : BitVec n) :
    u = x.setWidth w ↔ u.extractLsb' n m = 0#m ∧ u.extractLsb' 0 n = x := by
  have hhigh : (x.setWidth w).extractLsb' n m = 0#m := by
    ext i hi
    simp [BitVec.getElem_extractLsb']
  have hlow : (x.setWidth w).extractLsb' 0 n = x := by
    ext i hi
    have hiw : i < w := by omega
    simp [BitVec.getElem_extractLsb', hiw, hi]
  rw [eq_iff_parts hw, hhigh, hlow]

/-! ### Operands (R99) -/

theorem operand7_eq_ok {u : BitVec 20} {a : BitVec 7} : operand7 u = .ok a ↔ u = a.setWidth 20 := by
  rw [eq_setWidth_iff (m := 13) rfl, operand7]
  split <;> simp [*]

theorem operand8_eq_ok {u : BitVec 20} {b : BitVec 8} : operand8 u = .ok b ↔ u = b.setWidth 20 := by
  rw [eq_setWidth_iff (m := 12) rfl, operand8]
  split <;> simp [*]

theorem operand0_eq_ok {u : BitVec 20} {x : Unit} : operand0 u = .ok x ↔ u = 0#20 := by
  rw [operand0]
  split <;> simp [*]

theorem operandIndex_eq_ok {u : BitVec 20} {i : BitVec 3} :
    operandIndex u = .ok i ↔ u = i.setWidth 20 ∧ i.toNat ≤ 5 := by
  rw [eq_setWidth_iff (m := 17) rfl, operandIndex]
  split
  · split
    · next hz h5 => exact ⟨fun h => ⟨⟨hz, Except.ok.inj h⟩, Except.ok.inj h ▸ h5⟩, fun ⟨⟨_, hx⟩, _⟩ => congrArg _ hx⟩
    · next _ h5 => exact ⟨nofun, fun ⟨⟨_, hx⟩, h⟩ => absurd (hx ▸ h) h5⟩
  · next hz => exact ⟨nofun, fun ⟨⟨h, _⟩, _⟩ => absurd h hz⟩

/-! ### The response frame (R104) -/

theorem respWord_status (s : Byte) (h t : BitVec 20) : (respWord s h t).extractLsb' 40 8 = s := by
  apply BitVec.eq_of_toNat_eq
  rw [extractLsb'_toNat_eq_div, respWord_toNat]
  omega

theorem respWord_humidity (s : Byte) (h t : BitVec 20) : (respWord s h t).extractLsb' 20 20 = h := by
  apply BitVec.eq_of_toNat_eq
  rw [extractLsb'_toNat_eq_div, respWord_toNat]
  omega

theorem respWord_temperature (s : Byte) (h t : BitVec 20) : (respWord s h t).extractLsb' 0 20 = t := by
  apply BitVec.eq_of_toNat_eq
  rw [extractLsb'_toNat_eq_div, respWord_toNat]
  omega

theorem respWord_fields (w : BitVec 48) :
    respWord (w.extractLsb' 40 8) (w.extractLsb' 20 20) (w.extractLsb' 0 20) = w := by
  apply BitVec.eq_of_toNat_eq
  simp only [respWord_toNat, extractLsb'_toNat_eq_div]
  omega

/-! ### Words from their fields -/

theorem decode_hostWord (hop : BitVec 8) (harg : BitVec 16) :
    decode (.h24 (hostWord hop harg)) = decodeHop hop harg := by
  rw [decode, decodeHost, hopField_hostWord, hargField_hostWord]

theorem decode_microWord (kind : BitVec 4) (uarg : BitVec 20) :
    decode (.u24 (microWord kind uarg)) = decodeKind kind uarg := by
  rw [decode, decodeMicro, kindField_microWord, uargField_microWord]

theorem map_operand7 (f : BitVec 7 → Instr) (a : BitVec 7) : (operand7 (a.setWidth 20)).map f = .ok (f a) :=
  congrArg (Except.map f) (operand7_eq_ok.mpr rfl)

theorem map_operand8 (f : BitVec 8 → Instr) (b : BitVec 8) : (operand8 (b.setWidth 20)).map f = .ok (f b) :=
  congrArg (Except.map f) (operand8_eq_ok.mpr rfl)

theorem map_operandIndex (f : BitVec 3 → Instr) {i : BitVec 3} (h : i.toNat ≤ 5) :
    (operandIndex (i.setWidth 20)).map f = .ok (f i) :=
  congrArg (Except.map f) (operandIndex_eq_ok.mpr ⟨rfl, h⟩)

/-- R91 to R105: every row of the opcode table decodes to what was encoded. -/
theorem decode_encode (i : Instr) (h : i.wellFormed = true) : decode (encode i) = .ok i := by
  cases i with
  | init b => exact decode_hostWord 0x01#8 b
  | read => exact decode_hostWord 0x02#8 0#16
  | getth => exact decode_hostWord 0x03#8 0#16
  | fmt v => exact decode_hostWord 0x04#8 v
  | saddr a => exact (decode_microWord 0x1#4 _).trans (map_operand7 .saddr a)
  | scnt n => exact (decode_microWord 0x2#4 _).trans (map_operand8 .scnt n)
  | wb b => exact (decode_microWord 0x7#4 _).trans (map_operand8 .wb b)
  | rb k => exact (decode_microWord 0x8#4 _).trans (map_operandIndex .rb (of_decide_eq_true h))
  | dly n => exact decode_microWord 0x9#4 n
  | srd => exact decode_microWord 0x3#4 0#20
  | swr => exact decode_microWord 0x4#4 0#20
  | start => exact decode_microWord 0x5#4 0#20
  | stop => exact decode_microWord 0x6#4 0#20
  | endOp => exact decode_microWord 0xA#4 0#20
  | devAddr | calinit | trigger => rfl
  | resp s h t =>
    rw [encode, decode, decodeWire, respWord_status, respWord_humidity, respWord_temperature]
  | status b => rfl

/-- Settles O1. -/
theorem decodeOfEncodeIsTheInstruction : Obligations.DecodeOfEncodeIsTheInstruction := decode_encode

/-! ### What decodes (R97 to R105) -/

/-- R98, R99: no bit of a micro-operation word is dropped, and its operand is one the table admits. -/
theorem encode_of_decodeKind {kind : BitVec 4} {uarg : BitVec 20} {i : Instr} (h : decodeKind kind uarg = .ok i) :
    encode i = .u24 (microWord kind uarg) ∧ i.wellFormed = true := by
  have hkind {n : Nat} (hk : kind.toNat = n) : kind = BitVec.ofNat 4 n := by
    rw [← hk, BitVec.ofNat_toNat, BitVec.setWidth_eq]
  unfold decodeKind at h
  split at h
  case h_1 hk | h_2 hk | h_3 hk | h_4 hk | h_5 hk | h_6 hk | h_7 hk | h_10 hk =>
    obtain ⟨x, hx, rfl⟩ := except_map_eq_ok h
    simp only [operand7_eq_ok, operand8_eq_ok, operand0_eq_ok] at hx
    rw [hx, hkind hk]
    exact ⟨rfl, rfl⟩
  case h_8 hk =>
    obtain ⟨k, hu, rfl⟩ := except_map_eq_ok h
    obtain ⟨hu, h5⟩ := operandIndex_eq_ok.mp hu
    rw [hu, hkind hk]
    exact ⟨rfl, decide_eq_true h5⟩
  case h_9 hk =>
    rw [← Except.ok.inj h, hkind hk]
    exact ⟨rfl, rfl⟩
  case h_11 => cases h

/-- A ROM word decodes to exactly the well-formed instruction whose word it is. -/
theorem decode_u24_eq_ok {w : Word24} {i : Instr} :
    decode (.u24 w) = .ok i ↔ encode i = .u24 w ∧ i.wellFormed = true := by
  constructor
  · intro h
    rw [← microWord_fields w]
    exact encode_of_decodeKind h
  · rintro ⟨hw, hwf⟩
    rw [← hw]
    exact decode_encode i hwf

/-- R102 to R105: a frame decodes to exactly the instruction whose frame it is. -/
theorem decode_wire_eq_ok {f : WireFrame} {i : Instr} :
    decode (.wire f) = .ok i ↔ encode i = .wire f ∧ i.wellFormed = true := by
  constructor
  · intro h
    cases f with
    | a7 w =>
      simp only [decode, decodeWire] at h
      split at h <;> cases h
      next hw => exact ⟨by rw [hw]; rfl, rfl⟩
    | w3 w =>
      simp only [decode, decodeWire] at h
      split at h
      · next hw => cases h; exact ⟨by rw [hw]; rfl, rfl⟩
      · split at h <;> cases h
        next hw => exact ⟨by rw [hw]; rfl, rfl⟩
    | r6 w =>
      cases h
      exact ⟨by rw [encode, respWord_fields], rfl⟩
    | s8 w =>
      cases h
      exact ⟨rfl, rfl⟩
  · rintro ⟨hf, hwf⟩
    rw [← hf]
    exact decode_encode i hwf

/-- Settles O2. -/
theorem encodeOfDecodedMicroOrWireWordIsTheWord : Obligations.EncodeOfDecodedMicroOrWireWordIsTheWord :=
  ⟨fun _ _ h => (decode_u24_eq_ok.mp h).1, fun _ _ h => (decode_wire_eq_ok.mp h).1⟩

theorem wellFormed_of_isHostOp {i : Instr} (h : i.isHostOp = true) : i.wellFormed = true := by
  cases i with
  | rb => cases h
  | _ => rfl

/-- Settles O3. -/
theorem decodedInstructionsAreWellFormed : Obligations.DecodedInstructionsAreWellFormed
  | .h24 _, _, h => wellFormed_of_isHostOp (isHostOp_of_decodeHop h)
  | .u24 _, _, h => (decode_u24_eq_ok.mp h).2
  | .wire _, _, h => (decode_wire_eq_ok.mp h).2

/-! ### The rows of the micro-operations (R98, R99) -/

/-- The bits above an operand of `n` bits are the kind, then zeros; the bits below are the operand. -/
theorem microWord_parts {n m : Nat} (hm : n + m = 24) (hn : n ≤ 20) (kind : BitVec 4) (x : BitVec n) :
    (microWord kind (x.setWidth 20)).extractLsb' n m = kind.setWidth m <<< (20 - n) ∧
      (microWord kind (x.setWidth 20)).extractLsb' 0 n = x := by
  constructor
  · ext i hi
    have hsub : n + i - 20 = i - (20 - n) := by omega
    have h24 : n + i < 24 := by omega
    have h20 : n + i < 20 ↔ i < 20 - n := by omega
    simp [microWord, BitVec.getElem_extractLsb', h24, h20, ← hsub]
  · ext i hi
    have h20 : i < 20 := by omega
    have h24 : i < 24 := by omega
    simp [microWord, BitVec.getElem_extractLsb', h20, h24, hi]

/-- A word whose bits above an operand of `n` bits are those of a kind is a word of that kind. -/
theorem microWord_of_high {n m : Nat} (hm : n + m = 24) (hn : n ≤ 20) (kind : BitVec 4) {w : Word24}
    (h : w.extractLsb' n m = kind.setWidth m <<< (20 - n)) :
    microWord kind ((w.extractLsb' 0 n).setWidth 20) = w := by
  obtain ⟨hhigh, hlow⟩ := microWord_parts hm hn kind (w.extractLsb' 0 n)
  exact (eq_iff_parts hm _ _).mpr ⟨hhigh.trans h.symm, hlow⟩

/-- The ten rows of R98 with the must-be-zero bits and the index bound of R99, as patterns of a word. -/
def InMicroTable (w : Word24) : Prop :=
  w.extractLsb' 7 17 = 0x02000#17 ∨ w.extractLsb' 8 16 = 0x2000#16 ∨ w = 0x300000#24 ∨ w = 0x400000#24 ∨
    w = 0x500000#24 ∨ w = 0x600000#24 ∨ w.extractLsb' 8 16 = 0x7000#16 ∨
    (w.extractLsb' 3 21 = 0x100000#21 ∧ (w.extractLsb' 0 3).toNat ≤ 5) ∨
    w.extractLsb' 20 4 = 0x9#4 ∨ w = 0xA00000#24

theorem inMicroTable_encode {i : Instr} {w : Word24} (h : encode i = .u24 w) (hwf : i.wellFormed = true) :
    InMicroTable w := by
  unfold InMicroTable
  cases i with
  | saddr a =>
    cases h
    exact .inl (microWord_parts rfl (by decide) 0x1#4 a).1
  | scnt n =>
    cases h
    exact .inr (.inl (microWord_parts rfl (by decide) 0x2#4 n).1)
  | wb b =>
    cases h
    have hrow : (microWord 0x7#4 (b.setWidth 20)).extractLsb' 8 16 = 0x7000#16 :=
      (microWord_parts rfl (by decide) 0x7#4 b).1
    tauto
  | rb k =>
    cases h
    obtain ⟨hhigh, hlow⟩ := microWord_parts (m := 21) rfl (by decide) 0x8#4 k
    have hrow : (microWord 0x8#4 (k.setWidth 20)).extractLsb' 3 21 = 0x100000#21 ∧
        ((microWord 0x8#4 (k.setWidth 20)).extractLsb' 0 3).toNat ≤ 5 :=
      ⟨hhigh, hlow.symm ▸ of_decide_eq_true hwf⟩
    tauto
  | dly n =>
    cases h
    have hrow : (microWord 0x9#4 n).extractLsb' 20 4 = 0x9#4 :=
      BitVec.setWidth_eq n ▸ (microWord_parts rfl (by decide) 0x9#4 n).1
    tauto
  | srd | swr | start | stop | endOp =>
    cases h
    decide
  | init | read | getth | fmt | devAddr | calinit | trigger | resp | status => cases h

theorem exists_encode_of_inMicroTable {w : Word24} (h : InMicroTable w) :
    ∃ i : Instr, encode i = .u24 w ∧ i.wellFormed = true := by
  obtain h | h | rfl | rfl | rfl | rfl | h | ⟨h, h5⟩ | h | rfl := h
  · exact ⟨.saddr (w.extractLsb' 0 7), congrArg _ (microWord_of_high rfl (by decide) 0x1#4 h), rfl⟩
  · exact ⟨.scnt (w.extractLsb' 0 8), congrArg _ (microWord_of_high rfl (by decide) 0x2#4 h), rfl⟩
  · exact ⟨.srd, rfl, rfl⟩
  · exact ⟨.swr, rfl, rfl⟩
  · exact ⟨.start, rfl, rfl⟩
  · exact ⟨.stop, rfl, rfl⟩
  · exact ⟨.wb (w.extractLsb' 0 8), congrArg _ (microWord_of_high rfl (by decide) 0x7#4 h), rfl⟩
  · exact ⟨.rb (w.extractLsb' 0 3), congrArg _ (microWord_of_high rfl (by decide) 0x8#4 h), decide_eq_true h5⟩
  · have hw := microWord_of_high rfl (by decide) 0x9#4 h
    rw [BitVec.setWidth_eq] at hw
    exact ⟨.dly (w.extractLsb' 0 20), congrArg _ hw, rfl⟩
  · exact ⟨.endOp, rfl, rfl⟩

/-- R98, R99: a word decodes exactly when it stands in the table. -/
theorem exists_decode_u24_iff (w : Word24) : (∃ i : Instr, decode (.u24 w) = .ok i) ↔ InMicroTable w := by
  simp only [decode_u24_eq_ok]
  exact ⟨fun ⟨_, h, hwf⟩ => inMicroTable_encode h hwf, exists_encode_of_inMicroTable⟩

end Sys2Proof.Laws
end

section
/-! SUPPORT. What the step makes of a decoded and of a reserved word, the ROM as the assembled programs, and the
statements about them. -/

namespace Sys2Proof.Machine

open Sys2Proof.Laws

/-! ### The step at a decoded word (R107, R130, R256) -/

theorem step_host {s : State} {w : Word24} {rest : List Word24} {i : Instr} (hn : s.waiting = false) (hw : s.wire = [])
    (ha : s.active = false) (hq : s.hostq = w :: rest) (hd : decode (.h24 w) = .ok i) :
    step s = exec i { s with hostq := rest } :=
  step_of_fetch hn (fetch_host hw ha hq) hd

/-- Settles O11. -/
theorem stepRunsTheDecodedInstruction : Obligations.StepRunsTheDecodedInstruction :=
  ⟨fun _ _ _ _ hn hw ha hq hd => step_host hn hw ha hq hd,
    fun s _ hn hw ha => ⟨memRead_rom_upc s, fun hd => step_of_fetch hn (fetch_active hw ha) hd⟩,
    fun _ _ _ _ hn hf hd => step_of_fetch hn (fetch_wire hf) hd⟩

/-- A host word presented to an idle block enters its step only by what it decodes to. -/
theorem step_presented {s : State} {w : Word24} {i : Instr} (rest : List Word24) (ha : s.active = false)
    (hw : s.wire = []) (hd : decode (.h24 w) = .ok i) :
    step { s with hostq := w :: rest } = if s.waiting then .fault .stuck else exec i { s with hostq := rest } := by
  split
  · next hn => exact step_waiting (s := { s with hostq := w :: rest }) hn
  · next hn => exact step_host (s := { s with hostq := w :: rest }) (eq_false_of_ne_true hn) hw ha rfl hd

/-- Settles O4. -/
theorem readAndGetthIgnoreTheirArgument : Obligations.ReadAndGetthIgnoreTheirArgument := by
  intro harg harg'
  have hread (a : BitVec 16) : decode (.h24 (hostWord 0x02#8 a)) = .ok .read := decode_hostWord _ a
  have hgetth (a : BitVec 16) : decode (.h24 (hostWord 0x03#8 a)) = .ok .getth := decode_hostWord _ a
  refine ⟨hread harg, hgetth harg, fun s rest ha hw => ⟨?_, ?_⟩⟩
  · rw [step_presented rest ha hw (hread harg), step_presented rest ha hw (hread harg')]
  · rw [step_presented rest ha hw (hgetth harg), step_presented rest ha hw (hgetth harg')]

/-! ### The arguments of INIT and FMT (R93, R95) -/

theorem execInit_accepted {s : State} (b : BitVec 16) (ha : s.active = false) (hb : s.bound = false) :
    execInit b s = .next ((s.bind b).dispatch opInit initEntry) := by
  simp [execInit, ha, hb]

/-- Settles O5: acceptance looks at ACTIVE and BOUND alone. -/
theorem initArgumentGoesToBusSpeedOnly : Obligations.InitArgumentGoesToBusSpeedOnly := by
  refine fun b b' => ⟨decode_hostWord _ b, fun s t h => ?_⟩
  obtain ⟨ha, hb, rfl⟩ := execInit_eq_next h
  exact ⟨rfl, execInit_accepted b' ha hb⟩

/-- R95: the piecewise value of FMT's operand is its two's-complement value. -/
theorem value100_eq_toInt (harg : BitVec 16) : value100 harg = harg.toInt := by
  rw [value100, BitVec.toInt_eq_toNat_cond]
  split <;> split <;> omega

/-- Settles O6. -/
theorem fmtArgumentIsTwosComplement : Obligations.FmtArgumentIsTwosComplement :=
  fun harg => ⟨decode_hostWord _ harg, value100_eq_toInt harg⟩

/-! ### The step at a reserved word (R96, R101) -/

theorem step_reserved {s t : State} {w : Encoded} {e : DecodeError} (hn : s.waiting = false)
    (hf : fetch s = some (w, t)) (hd : decode w = .error e) : step s = .refused (.reserved e) := by
  simp [step, hn, hf, hd]

theorem decodeHop_reserved {hop : BitVec 8} (h : hop = 0x00#8 ∨ 5 ≤ hop.toNat) (harg : BitVec 16) :
    decodeHop hop harg = .error .reservedHostOpcode := by
  have hne : hop.toNat ≠ 1 ∧ hop.toNat ≠ 2 ∧ hop.toNat ≠ 3 ∧ hop.toNat ≠ 4 := by
    obtain rfl | h := h
    · decide
    · omega
  unfold decodeHop
  split <;> simp_all

/-- Settles O7. -/
theorem reservedHostOpcodesAreRefused : Obligations.ReservedHostOpcodesAreRefused := by
  intro w h
  have hd : decode (.h24 w) = .error .reservedHostOpcode := decodeHop_reserved h _
  exact ⟨hd, fun s rest ha hn hw hq => step_reserved hn (fetch_host hw ha hq) hd⟩

/-- Settles O8. -/
theorem microWordsDecodeExactlyAsTheTableSays : Obligations.MicroWordsDecodeExactlyAsTheTableSays := by
  refine fun w => ⟨exists_decode_u24_iff w, fun s ha hn hw hr hno => ?_⟩
  cases hd : decode (.u24 w) with
  | ok i => exact absurd hd (hno i)
  | error e => exact ⟨e, step_reserved hn (fetch_active hw ha) (hr ▸ hd)⟩

/-- Settles O9: closed words. -/
theorem sampleWordsDecode : Obligations.SampleWordsDecode := by
  refine ⟨?_, ?_, ?_, ?_, ?_, ?_, ?_, ?_, ?_, ?_, ?_, ?_, ?_, ?_, ?_⟩ <;> decide

/-! ### The ROM (R100, R109) -/

theorem length_programs (d : Delays) : (initProgram d ++ readProgram d).length = 31 := rfl

theorem getElem_programs (d : Delays) {n : Nat} (h : n < (initProgram d ++ readProgram d).length) :
    (initProgram d ++ readProgram d)[n] = programAt d n := by
  rw [programAt, List.getElem?_eq_getElem h, Option.getD_some]

/-- R100: the ROM word at an index of the programs is the word of the micro-operation that stands there. -/
theorem encode_programAt (d : Delays) {n : Nat} (h : n ≤ 30) :
    encode (programAt d n) = .u24 ((romOf d)[n]'(by omega)) :=
  (decode_u24_eq_ok.mp (decode_romOf d n h)).1

theorem map_encode_programs (d : Delays) :
    (initProgram d ++ readProgram d).map encode = ((romOf d).toList.take 31).map Encoded.u24 := by
  refine List.ext_getElem rfl fun n hn _ => ?_
  have h30 : n ≤ 30 := by
    rw [List.length_map, length_programs] at hn
    omega
  rw [List.getElem_map, List.getElem_map, List.getElem_take, Vector.getElem_toList, getElem_programs,
    encode_programAt d h30]

/-- Settles O10: what the ROM's words decode to is what they encode. -/
theorem romIsTheAssembledMicroPrograms : Obligations.RomIsTheAssembledMicroPrograms := by
  intro d
  have h31 : (romOf d)[31] = 0x000000#24 := rfl
  refine ⟨map_encode_programs d, h31, fun i => ?_⟩
  rw [h31]
  exact nofun

end Sys2Proof.Machine
end

section
/-! SUPPORT. The running sequencer at each word of its programs, and a wire frame as the micro-operations that carry it
(log 14), with the statements made of them. -/

namespace Sys2Proof.Machine

open Sys2Proof.Laws

variable {d : Delays} {i : Instr} {s t : State}

/-! ### The sequencer at its own words (R100, R101) -/

theorem programAt_isMicroOp_wellFormed (d : Delays) {n : Nat} (h : n ≤ 30) :
    (programAt d n).isMicroOp = true ∧ (programAt d n).wellFormed = true :=
  ⟨isMicroOp_of_decodeKind (decode_romOf d n h), (decode_u24_eq_ok.mp (decode_romOf d n h)).2⟩

theorem execRb_of_le_5 {k : BitVec 3} (h : k.toNat ≤ 5) (s : State) :
    execRb k s = receiveByte ⟨k.toNat, Nat.lt_succ_of_le h⟩ s := by
  rw [execRb, rawIndex_of_lt (Nat.lt_succ_of_le h)]

/-- R130, R144: a micro-operation of a waiting block is stuck, as its step is. -/
theorem exec_microOp_waiting (hm : i.isMicroOp = true) (hwf : i.wellFormed = true) (ha : s.active = true)
    (hw : s.waiting = true) : exec i s = .fault .stuck := by
  cases i with
  | rb k => exact (execRb_of_le_5 (of_decide_eq_true hwf) s).trans (microStep_stuck ha hw)
  | endOp => exact (enabled_waiting ha hw : execEnd s = .fault .stuck)
  | saddr | scnt | srd | swr | start | stop | wb | dly => exact microStep_stuck ha hw
  | init | read | getth | fmt | devAddr | calinit | trigger | resp | status => cases hm

/-- R130: a running sequencer over the fixed ROM runs the micro-operation at UPC, a primitive outstanding or not. -/
theorem step_running (hr : s.rom = romOf d) (hw : s.wire = []) (ha : s.active = true) (hu : s.upc.toNat ≤ 30) :
    step s = exec (programAt d s.upc.toNat) s := by
  cases hn : s.waiting with
  | true =>
    obtain ⟨hm, hwf⟩ := programAt_isMicroOp_wellFormed d hu
    rw [step_waiting hn, exec_microOp_waiting hm hwf ha hn]
  | false => exact step_programAt hr hw ha hn hu

/-- Settles O37. -/
theorem sequencerRunsTheListedProgram : Obligations.SequencerRunsTheListedProgram := by
  intro d s h ha
  have hu : s.upc.toNat ≤ 30 := (h.program ha).le_30
  have hlen : s.upc.toNat < (initProgram d ++ readProgram d).length := Nat.lt_succ_of_le hu
  refine ⟨programAt d s.upc.toNat, ?_, (programAt_isMicroOp_wellFormed d hu).1, step_running h.rom h.wire ha hu⟩
  rw [List.getElem?_eq_getElem hlen, getElem_programs]

/-! ### Micro-operations in a row -/

/-- The micro-operations of a list one after the other, none after one whose primitive never returns (R144). -/
def execEach : List Instr → State → Out
  | [], s => .next s
  | i :: is, s => andThen (exec i s) (onReturn (execEach is))

/-- R137: sending bytes is running their WBs. -/
theorem sendBytes_eq_execEach : ∀ bs : List Byte, sendBytes bs = execEach (bs.map .wb)
  | [] => rfl
  | b :: bs => by
    funext s
    rw [sendBytes_cons, sendBytes_eq_execEach bs]
    rfl

/-- The RB of an element of RAW (R98). -/
def rbOf (k : Fin 6) : Instr := .rb (BitVec.ofNat 3 k.val)

theorem exec_rbOf (k : Fin 6) (s : State) : exec (rbOf k) s = receiveByte k s := by
  fin_cases k <;> rfl

/-- R138: receiving bytes is running the RBs of their elements. -/
theorem receiveBytes_eq_execEach : ∀ is : List (Fin 6), receiveBytes is = execEach (is.map rbOf)
  | [] => rfl
  | k :: is => by
    funext s
    rw [receiveBytes_cons, receiveBytes_eq_execEach is, ← exec_rbOf]
    rfl

/-! ### Whether the primitive of a micro-operation returns (R144) -/

/-- The one primitive of a micro-operation never returns, and the block waits; or it does, and one return fewer is to
come. -/
def OneIssued (s t : State) : Prop :=
  (s.hangIn = some 0 ∧ t.waiting = true) ∨
    (s.hangIn ≠ some 0 ∧ t.waiting = false ∧ t.hangIn = s.hangIn.map fun n => n - 1)

theorem microStep_oneIssued {e : Event} {u : State → State} (h : microStep e u s = .next t)
    (hhang : ∀ r, (u r).hangIn = r.hangIn) (hwait : ∀ r, (u r).waiting = r.waiting) : OneIssued s t := by
  obtain ⟨_, hw, ⟨hh, rfl⟩ | ⟨hh, rfl⟩⟩ := microStep_eq_next h
  · exact .inr ⟨hh, by simp [hwait, hw], by simp [hhang]⟩
  · exact .inl ⟨hh, rfl⟩

theorem receiveByte_oneIssued {k : Fin 6} (h : receiveByte k s = .next t) : OneIssued s t :=
  microStep_oneIssued (s := s.consume) h (fun _ => rfl) fun _ => rfl

theorem exec_microOp_oneIssued (hm : i.isMicroOp = true) (hwf : i.wellFormed = true) (he : i ≠ .endOp)
    (h : exec i s = .next t) : OneIssued s t := by
  cases i with
  | rb k => exact receiveByte_oneIssued ((execRb_of_le_5 (of_decide_eq_true hwf) s).symm.trans h)
  | endOp => exact absurd rfl he
  | saddr | scnt | srd | swr | start | stop | wb | dly =>
    exact microStep_oneIssued h (fun _ => rfl) fun _ => rfl
  | init | read | getth | fmt | devAddr | calinit | trigger | resp | status => cases hm

theorem issued_zero (s : State) : issued 0 s = 0 := by
  unfold issued
  split <;> simp

theorem issued_succ_of_hangs (n : Nat) (h : s.hangIn = some 0) : issued (n + 1) s = 1 := by
  simp [issued, h]

theorem issued_succ_of_returns (n : Nat) (h : s.hangIn ≠ some 0) (ht : t.hangIn = s.hangIn.map fun m => m - 1) :
    issued (n + 1) s = issued n t + 1 := by
  unfold issued
  rw [ht]
  cases hs : s.hangIn with
  | none => rfl
  | some m =>
    have hm : m ≠ 0 := fun e => h (by rw [hs, e])
    simp only [Option.map_some]
    omega

theorem issued_succ_pos (n : Nat) (s : State) : ∃ k, issued (n + 1) s = k + 1 := by
  unfold issued
  split
  · exact ⟨n, rfl⟩
  · exact ⟨_, Nat.add_min_add_right _ _ 1⟩

/-! ### A stretch of the ROM (R100) -/

theorem andThen_next_right (o : Out) : andThen o .next = o := by
  cases o <;> rfl

theorem steps_one (s : State) : steps 1 s = step s := andThen_next_right (step s)

/-- R29, R130: the `n` words from index `u` on, none of them an END, run one after the other are as many steps as issue
their primitive. -/
theorem execEach_eq_steps : ∀ (n : Nat) {u : Nat} {s : State}, s.rom = romOf d → s.wire = [] → s.active = true →
    s.upc.toNat = u → (∀ v, u ≤ v → v < u + n → BeforeEnd v) →
      execEach ((List.range' u n).map (programAt d)) s = steps (issued n s) s
  | 0, u, s, _, _, _, _, _ => by
    rw [issued_zero]
    rfl
  | n + 1, u, s, hr, hw, ha, hu, hbefore => by
    have hle : u ≤ 30 := by
      have := hbefore u le_rfl (by omega)
      unfold BeforeEnd at this
      omega
    have hstep := step_running hr hw ha (hu ▸ hle)
    rw [hu] at hstep
    obtain ⟨hm, hwf⟩ := programAt_isMicroOp_wellFormed d hle
    have hend : programAt d u ≠ .endOp := (programAt_microOp d (hbefore u le_rfl (by omega))).2
    obtain ⟨k, hk⟩ := issued_succ_pos n s
    rw [List.range'_succ, List.map_cons, execEach]
    cases he : exec (programAt d u) s with
    | fault r => rw [hk, steps, hstep, he, andThen_fault, andThen_fault]
    | refused r => rw [hk, steps, hstep, he, andThen_refused, andThen_refused]
    | next t =>
      rw [he] at hstep
      obtain ⟨_, _, hf, heffect⟩ := exec_microOp_effect hm hend he
      obtain ⟨hhang, hwait⟩ | ⟨hret, hwait, hleft⟩ := exec_microOp_oneIssued hm hwf hend he
      · rw [andThen_next, onReturn_waiting hwait, issued_succ_of_hangs n hhang, steps_one, hstep]
      · have hupc : t.upc.toNat = u + 1 := by
          cases heffect with
          | hangs hwait' => exact absurd (hwait.symm.trans hwait') (by decide)
          | done _ hupc => rw [hupc, nextUpc_toNat (by omega), hu]
        have ih := execEach_eq_steps n (hf.rom.trans hr) (hf.wire.trans hw) (hf.active.trans ha) hupc
          fun v hlo hhi => hbefore v (by omega) (by omega)
        rw [andThen_next, onReturn_of_returned hwait, ih, issued_succ_of_returns n hret hleft, steps, hstep,
          andThen_next]

theorem beforeEnd_commandBytes {u : Nat} (hu : u = 4 ∨ u = 13) (v : Nat) (hlo : u ≤ v) (hhi : v < u + 3) :
    BeforeEnd v := by
  unfold BeforeEnd
  omega

theorem beforeEnd_responseBytes (v : Nat) (hlo : 21 ≤ v) (hhi : v < 21 + 6) : BeforeEnd v := .inr (by omega)

/-- Settles O25: each frame is a stretch of the ROM. -/
theorem wireFramesAreTheirRomWords : Obligations.WireFramesAreTheirRomWords := by
  intro d s hr hw ha
  refine ⟨fun hu => ?devAddr, fun hu => ?calinit, fun hu => ?trigger, fun hu st h t => ?resp, fun hu b => ?status⟩
  case devAddr =>
    rw [steps_one, step_running hr hw ha (by simp [hu]), hu]
    rfl
  case calinit =>
    rw [← execEach_eq_steps 3 hr hw ha (congrArg BitVec.toNat hu) (beforeEnd_commandBytes (.inl rfl))]
    exact congrFun (sendBytes_eq_execEach Config.cmdCalinit) s
  case trigger =>
    rw [← execEach_eq_steps 3 hr hw ha (congrArg BitVec.toNat hu) (beforeEnd_commandBytes (.inr rfl))]
    exact congrFun (sendBytes_eq_execEach Config.cmdTrigger) s
  case resp =>
    calc exec (.resp st h t) s
        = execEach ((List.range' 21 6).map (programAt d)) (s.supply (respBytes st h t)) :=
          congrFun (receiveBytes_eq_execEach [0, 1, 2, 3, 4, 5]) _
      _ = steps (issued 6 s) (s.supply (respBytes st h t)) :=
          execEach_eq_steps 6 hr hw ha (congrArg BitVec.toNat hu) beforeEnd_responseBytes
  case status =>
    have hrom := step_running (s := s.supply [b]) hr hw ha (by simp [hu])
    rw [State.supply_upc, hu] at hrom
    rw [steps_one]
    exact hrom.symm

end Sys2Proof.Machine
end

section
/-! SUPPORT. Bytes sent and received where every primitive returns, the fields of a response frame in RAW, and the
statements about what the frames do (log 14). -/

namespace Sys2Proof.Machine

open Sys2Proof.Laws

variable {s : State}

/-! ### Transfers where every primitive returns (R137, R138) -/

theorem sendByte_returns (b : Byte) (ha : s.active = true) (hw : s.waiting = false) (hh : s.hangIn = none) :
    sendByte b s =
      .next { s with
        ev := s.ev ++ [.writeByte b]
        tr := { s.tr with xfer := nextXfer s.tr.xfer }
        upc := nextUpc s.upc } :=
  microStep_next_of_none ha hw hh

theorem sendBytes_returns : ∀ (bs : List Byte) {s : State}, s.active = true → s.waiting = false → s.hangIn = none →
    sendBytes bs s =
      .next { s with
        ev := s.ev ++ bs.map .writeByte
        tr := { s.tr with xfer := nextXfer^[bs.length] s.tr.xfer }
        upc := nextUpc^[bs.length] s.upc }
  | [], s, _, _, _ => by simp
  | b :: bs, s, ha, hw, hh => by
    rw [sendBytes_cons, sendByte_returns b ha hw hh, andThen_next]
    simp [onReturn_of_returned, sendBytes_returns bs, ha, hw, hh]

/-- A register file after the values `xs` have been written to the elements `is`, first to last. -/
def fill {α : Type} : List (Fin 6) → List α → Vector α 6 → Vector α 6
  | k :: is, x :: xs, v => fill is xs (v.set k x)
  | _, _, v => v

theorem fill_all {α : Type} (a b c d e f : α) (v : Vector α 6) :
    fill [0, 1, 2, 3, 4, 5] [a, b, c, d, e, f] v = #v[a, b, c, d, e, f] := by
  ext j hj
  interval_cases j <;> simp [fill]

/-- The state after the bytes `bs` have been received into the elements `is` of RAW, the bytes `rest` still to come. -/
def State.received (is : List (Fin 6)) (bs rest : List Byte) (s : State) : State :=
  { s with
    ev := s.ev ++ bs.map .readByte
    raw := fill is bs s.raw
    rawWritten := fill is (is.map fun _ => true) s.rawWritten
    tr := { s.tr with xfer := nextXfer^[is.length] s.tr.xfer }
    env := rest
    draws := s.draws + is.length
    upc := nextUpc^[is.length] s.upc }

theorem received_cons (k : Fin 6) (is : List (Fin 6)) (b : Byte) (bs rest rest' : List Byte) (s : State) :
    (s.received [k] [b] rest').received is bs rest = s.received (k :: is) (b :: bs) rest := by
  simp [State.received, fill, Nat.add_assoc, Nat.one_add]

theorem receiveByte_returns (k : Fin 6) {b : Byte} {rest : List Byte} (ha : s.active = true) (hw : s.waiting = false)
    (hh : s.hangIn = none) (he : s.env = b :: rest) : receiveByte k s = .next (s.received [k] [b] rest) := by
  rw [receiveByte, drawnByte_cons he, microStep_next_of_none (s := s.consume) ha hw hh, State.consume, he]
  rfl

theorem receiveBytes_returns {is : List (Fin 6)} {bs rest : List Byte} (hlen : is.length = bs.length)
    (ha : s.active = true) (hw : s.waiting = false) (hh : s.hangIn = none) (he : s.env = bs ++ rest) :
    receiveBytes is s = .next (s.received is bs rest) := by
  induction is generalizing bs s with
  | nil =>
    obtain rfl := List.eq_nil_of_length_eq_zero hlen.symm
    obtain rfl : s.env = rest := he
    simp [State.received, fill]
  | cons k is ih =>
    obtain ⟨b, bs, rfl⟩ := List.exists_cons_of_length_eq_add_one hlen.symm
    have hrest := ih (s := s.received [k] [b] (bs ++ rest)) (Nat.succ.inj hlen) ha hw hh rfl
    rw [receiveBytes_cons, receiveByte_returns k (rest := bs ++ rest) ha hw hh he, andThen_next,
      onReturn_of_returned (s := s.received [k] [b] (bs ++ rest)) hw, hrest, received_cons]

/-! ### The counters over several primitives (R29, R41) -/

/-- A counter that counts by one below `m` counts `n` times as long as it does not pass `m`. -/
theorem iterate_toNat {w m : Nat} {f : BitVec w → BitVec w} (hf : ∀ x, x.toNat < m → (f x).toNat = x.toNat + 1) :
    ∀ (n : Nat) (x : BitVec w), x.toNat + n ≤ m → (f^[n] x).toNat = x.toNat + n
  | 0, _, _ => rfl
  | n + 1, x, h => by
    have hx : (f x).toNat = x.toNat + 1 := hf x (by omega)
    rw [Function.iterate_succ_apply, iterate_toNat hf n _ (by omega), hx]
    omega

/-- Settles O23. -/
theorem addressCommandAndStatusFramesTransfer : Obligations.AddressCommandAndStatusFramesTransfer := by
  intro s b ha hw hh
  exact ⟨microStep_next_of_none ha hw hh, sendBytes_returns Config.cmdCalinit ha hw hh,
    sendBytes_returns Config.cmdTrigger ha hw hh, receiveByte_returns (s := s.supply [b]) 0 ha hw hh rfl⟩

/-! ### The fields of a response frame (R104, R192, R193) -/

/-- Two bytes side by side in a wider word. -/
theorem shift_or_bytes_toNat {n : Nat} (hn : 16 ≤ n) (a b : Byte) :
    (a.setWidth n <<< 8 ||| b.setWidth n).toNat = a.toNat * 256 + b.toNat := by
  have hpow : 2 ^ 16 ≤ 2 ^ n := Nat.pow_le_pow_right (by decide) hn
  have ha : (a.setWidth n).toNat = a.toNat := by rw [BitVec.toNat_setWidth]; exact Nat.mod_eq_of_lt (by omega)
  have hb : (b.setWidth n).toNat = b.toNat := by rw [BitVec.toNat_setWidth]; exact Nat.mod_eq_of_lt (by omega)
  rw [shift_or_toNat, ha, hb] <;> omega

/-- R192: HRAW as a number. -/
theorem unpackH_toNat (r1 r2 r3 : Byte) :
    (unpackH r1 r2 r3).toNat = r1.toNat * 4096 + r2.toNat * 16 + r3.toNat / 16 := by
  have hlow := shift_or_bytes_toNat (n := 24) (by decide) r2 r3
  have hw24 : (w24 r1 r2 r3).toNat = r1.toNat * 65536 + (r2.toNat * 256 + r3.toNat) := by
    rw [w24, BitVec.or_assoc, shift_or_toNat, hlow]
    all_goals simp only [BitVec.toNat_setWidth, hlow]
    all_goals omega
  rw [unpackH, BitVec.toNat_setWidth, BitVec.toNat_ushiftRight, hw24, Nat.shiftRight_eq_div_pow]
  omega

/-- R193: TRAW as a number. -/
theorem unpackT_toNat (r3 r4 r5 : Byte) :
    (unpackT r3 r4 r5).toNat = r3.toNat % 16 * 65536 + r4.toNat * 256 + r5.toNat := by
  have hlow := shift_or_bytes_toNat (n := 20) (by decide) r4 r5
  have hmask : (r3.setWidth 20 &&& 0x0F#20).toNat = r3.toNat % 16 := by
    rw [BitVec.toNat_and, BitVec.toNat_setWidth]
    exact (Nat.and_two_pow_sub_one_eq_mod _ 4).trans (by omega)
  rw [unpackT, BitVec.or_assoc, shift_or_toNat, hmask, hlow]
  all_goals omega

/-- The RAW register file that holds a response frame. -/
def respRaw (st : Byte) (h t : BitVec 20) : Vector Byte 6 := ⟨(respBytes st h t).toArray, rfl⟩

section

variable (st : Byte) (h t : BitVec 20)

theorem respRaw_1_toNat : (respRaw st h t)[1].toNat = h.toNat / 2 ^ 12 % 2 ^ 8 := extractLsb'_toNat_eq_div h 12 8
theorem respRaw_2_toNat : (respRaw st h t)[2].toNat = h.toNat / 2 ^ 4 % 2 ^ 8 := extractLsb'_toNat_eq_div h 4 8
theorem respRaw_4_toNat : (respRaw st h t)[4].toNat = t.toNat / 2 ^ 8 % 2 ^ 8 := extractLsb'_toNat_eq_div t 8 8
theorem respRaw_5_toNat : (respRaw st h t)[5].toNat = t.toNat / 2 ^ 0 % 2 ^ 8 := extractLsb'_toNat_eq_div t 0 8

/-- The byte both fields share carries the lowest digit of the humidity and the highest of the temperature. -/
theorem respRaw_3_toNat : (respRaw st h t)[3].toNat = h.toNat % 16 * 16 + t.toNat / 65536 := by
  have ht : ((t.extractLsb' 16 4).setWidth 8).toNat = t.toNat / 65536 := by
    rw [BitVec.toNat_setWidth, extractLsb'_toNat_eq_div]
    omega
  have hh : ((h.extractLsb' 0 4).setWidth 8).toNat = h.toNat % 16 := by
    rw [BitVec.toNat_setWidth, extractLsb'_toNat_eq_div]
    omega
  calc (respRaw st h t)[3].toNat
      = (((h.extractLsb' 0 4).setWidth 8 <<< 4) ||| (t.extractLsb' 16 4).setWidth 8 : Byte).toNat := rfl
    _ = h.toNat % 16 * 16 + t.toNat / 65536 := by rw [shift_or_toNat, ht, hh] <;> omega

/-- R104, R192: the unpacker gives back the humidity field. -/
theorem hrawOf_respRaw : hrawOf (respRaw st h t) = h := by
  apply BitVec.eq_of_toNat_eq
  rw [hrawOf, unpackH_toNat, respRaw_1_toNat, respRaw_2_toNat, respRaw_3_toNat]
  omega

/-- R104, R193: the unpacker gives back the temperature field. -/
theorem trawOf_respRaw : trawOf (respRaw st h t) = t := by
  apply BitVec.eq_of_toNat_eq
  rw [trawOf, unpackT_toNat, respRaw_3_toNat, respRaw_4_toNat, respRaw_5_toNat]
  omega

end

/-- R104: where every primitive returns, a response frame fills RAW with its bytes. -/
theorem execResp_returns (st : Byte) (h t : BitVec 20) (ha : s.active = true) (hw : s.waiting = false)
    (hh : s.hangIn = none) :
    execResp st h t s =
      .next { s with
        ev := s.ev ++ (respRaw st h t).toList.map .readByte
        raw := respRaw st h t
        rawWritten := #v[true, true, true, true, true, true]
        tr := { s.tr with xfer := nextXfer^[6] s.tr.xfer }
        draws := s.draws + 6
        upc := nextUpc^[6] s.upc } := by
  have hraw : fill [0, 1, 2, 3, 4, 5] (respBytes st h t) s.raw = respRaw st h t := fill_all ..
  have hwritten : fill [0, 1, 2, 3, 4, 5] [true, true, true, true, true, true] s.rawWritten = _ := fill_all ..
  have hrun := receiveBytes_returns (is := [0, 1, 2, 3, 4, 5]) (s := s.supply (respBytes st h t)) rfl ha hw hh rfl
  rw [execResp, hrun, State.received, State.supply_raw, hraw, ← hwritten]
  rfl

/-- Settles O24. -/
theorem responseFrameFillsRaw : Obligations.ResponseFrameFillsRaw := by
  intro s st h t ha hw hh
  refine ⟨_, execResp_returns st h t ha hw hh, ?_⟩
  dsimp only
  refine ⟨rfl, hrawOf_respRaw st h t, trawOf_respRaw st h t, fun i => ?written, rfl, rfl, fun hx => ?xfer,
    fun hu => ?upc⟩
  case written => fin_cases i <;> rfl
  case xfer => exact iterate_toNat (fun _ => nextXfer_toNat) 6 s.tr.xfer (by omega)
  case upc => exact iterate_toNat (fun _ => nextUpc_toNat) 6 s.upc (by omega)

end Sys2Proof.Machine
end

section
/-! SUPPORT. Every micro-operation but END as one primitive and what follows its return, and each single one where that
primitive returns; with the statements made of them. -/

namespace Sys2Proof.Machine

variable {i : Instr} {s t : State} {e : Event}

/-! ### One primitive (R130 to R139) -/

/-- The instruction issues the primitive of `e`, the byte it reads drawn before, and what it does once the primitive has
returned leaves EV. -/
def IssuesOne (i : Instr) (s : State) (e : Event) : Prop :=
  ∃ (u : State → State) (env : List Byte) (draws : Nat),
    exec i s = microStep e u { s with env := env, draws := draws } ∧ ∀ r, (u r).ev = r.ev

theorem exec_microOp_issuesOne (hm : i.isMicroOp = true) (hwf : i.wellFormed = true) (he : firstEvent i s = some e) :
    IssuesOne i s e := by
  cases i with
  | rb k =>
    obtain rfl := Option.some.inj he
    exact ⟨_, s.consume.env, s.consume.draws, execRb_of_le_5 (of_decide_eq_true hwf) s, fun _ => rfl⟩
  | saddr | scnt | srd | swr | start | stop | wb | dly =>
    obtain rfl := Option.some.inj he
    exact ⟨_, s.env, s.draws, rfl, fun _ => rfl⟩
  | endOp => cases he
  | init | read | getth | fmt | devAddr | calinit | trigger | resp | status => cases hm

theorem exists_firstEvent (hm : i.isMicroOp = true) (hne : i ≠ .endOp) (s : State) : ∃ e, firstEvent i s = some e := by
  cases i with
  | endOp => exact absurd rfl hne
  | saddr | scnt | srd | swr | start | stop | wb | rb | dly => exact ⟨_, rfl⟩
  | init | read | getth | fmt | devAddr | calinit | trigger | resp | status => cases hm

namespace IssuesOne

theorem idle (h : IssuesOne i s e) (ha : s.active = false) : exec i s = .refused .sequencerIdle := by
  obtain ⟨u, env, draws, hexec, _⟩ := h
  exact hexec.trans (microStep_idle ha)

theorem ne_fault (h : IssuesOne i s e) (hw : s.waiting = false) (f : Fault) : exec i s ≠ .fault f := by
  obtain ⟨u, env, draws, hexec, _⟩ := h
  intro hf
  obtain ⟨_, _, hw'⟩ := microStep_eq_fault (hexec.symm.trans hf)
  exact absurd (hw.symm.trans hw') (by decide)

/-- R144: the event of a primitive that never returns stands in EV, and the block waits. -/
theorem hangs (h : IssuesOne i s e) (ha : s.active = true) (hw : s.waiting = false) (hh : s.hangIn = some 0) :
    ∃ env draws, exec i s = .next { s with ev := s.ev ++ [e], waiting := true, env := env, draws := draws } := by
  obtain ⟨u, env, draws, hexec, _⟩ := h
  exact ⟨env, draws, hexec.trans (microStep_hangs ha hw hh)⟩

/-- R46: whether the primitive returns or not, its event is the one that is appended. -/
theorem ev (h : IssuesOne i s e) (ht : exec i s = .next t) : t.ev = s.ev ++ [e] := by
  obtain ⟨u, env, draws, hexec, hu⟩ := h
  obtain ⟨_, _, ⟨_, rfl⟩ | ⟨_, rfl⟩⟩ := microStep_eq_next (hexec.symm.trans ht)
  · rw [State.advance_ev, hu]
  · rfl

end IssuesOne

/-! ### Each micro-operation whose primitive returns (R131 to R140) -/

/-- Settles O17: each is one primitive and, once it has returned, one field of the transport. -/
theorem configurationMicroOpsWriteTheTransport : Obligations.ConfigurationMicroOpsWriteTheTransport := by
  intro s a n ⟨ha, hw, hh⟩
  exact ⟨microStep_next ha hw hh, microStep_next ha hw hh, microStep_next ha hw hh, microStep_next ha hw hh⟩

/-- Settles O18: each is one primitive and, once it has returned, the state of the transaction. -/
theorem startAndStopOpenAndClose : Obligations.StartAndStopOpenAndClose := by
  intro s ⟨ha, hw, hh⟩
  exact ⟨microStep_next ha hw hh, microStep_next ha hw hh⟩

/-- Settles O19: each is one primitive; after it WB counts its byte, and DLY has nothing left to do. -/
theorem writeByteAndDelayResults : Obligations.WriteByteAndDelayResults := by
  intro s b n ⟨ha, hw, hh⟩
  exact ⟨microStep_next ha hw hh, microStep_next ha hw hh⟩

/-- R45: the next byte of the environment, listed or free, is the one drawn. -/
theorem nthDraw_zero (s : State) : nthDraw s 0 = drawnByte s := by
  cases henv : s.env with
  | nil => simp [nthDraw, drawnByte_nil henv, henv]
  | cons b bs => simp [nthDraw, drawnByte_cons henv, henv]

/-- Settles O20: the byte is drawn before its event is issued, so the primitive runs on the state less that byte. -/
theorem readByteStoresTheDrawnByte : Obligations.ReadByteStoresTheDrawnByte := by
  refine ⟨fun s i hi ⟨ha, hw, hh⟩ => ?stores, fun s i hi => ?refused⟩
  case stores =>
    rw [nthDraw_zero]
    exact (execRb_of_le_5 (Nat.le_of_lt_succ hi) s).trans (microStep_next (s := s.consume) ha hw hh)
  case refused =>
    show execRb i s = _
    rw [execRb, rawIndex_of_ge hi]

/-- Settles O21: END issues no primitive, so it runs to its end whatever the environment does. -/
theorem endConvertsForGetthAndClearsActive : Obligations.EndConvertsForGetthAndClearsActive := by
  intro s ha hw
  refine ⟨fun hop => ?_, fun hop => ?_⟩
  · exact (execEnd_run ha hw).trans (congrArg _ (if_pos hop))
  · exact (execEnd_run ha hw).trans (congrArg _ (if_neg hop))

end Sys2Proof.Machine
end

section
/-! SUPPORT. Micro-operations in idle, waiting and hanging blocks; a wire frame there, by the micro-operations that carry
it (log 14); with the statements made of them. -/

namespace Sys2Proof.Machine

open Sys2Proof.Laws

variable {i : Instr} {s t : State} {e : Event}

/-! ### One micro-operation (R130, R140, R144) -/

theorem exec_microOp_idle (hm : i.isMicroOp = true) (hwf : i.wellFormed = true) (ha : s.active = false) :
    exec i s = .refused .sequencerIdle := by
  by_cases hend : i = .endOp
  · subst hend
    exact (enabled_idle ha : execEnd s = _)
  · obtain ⟨e, he⟩ := exists_firstEvent hm hend s
    exact (exec_microOp_issuesOne hm hwf he).idle ha

theorem execEnd_ne_fault (hw : s.waiting = false) (f : Fault) : execEnd s ≠ .fault f := by
  intro h
  cases ha : s.active with
  | true => exact nomatch (execEnd_run ha hw).symm.trans h
  | false => exact nomatch (exec_microOp_idle (i := .endOp) rfl rfl ha).symm.trans h

theorem exec_microOp_ne_fault (hm : i.isMicroOp = true) (hwf : i.wellFormed = true) (hw : s.waiting = false)
    (f : Fault) : exec i s ≠ .fault f := by
  by_cases hend : i = .endOp
  · subst hend
    exact execEnd_ne_fault hw f
  · obtain ⟨e, he⟩ := exists_firstEvent hm hend s
    exact (exec_microOp_issuesOne hm hwf he).ne_fault hw f

/-- Where every primitive returns, the block neither waits after a micro-operation nor will. -/
theorem exec_microOp_returns (hm : i.isMicroOp = true) (hwf : i.wellFormed = true) (hh : s.hangIn = none)
    (h : exec i s = .next t) : t.waiting = false ∧ t.hangIn = none := by
  by_cases hend : i = .endOp
  · subst hend
    obtain ⟨_, hw, rfl⟩ := execEnd_eq_next h
    split <;> exact ⟨hw, hh⟩
  · obtain ⟨hhang, _⟩ | ⟨_, hw, hleft⟩ := exec_microOp_oneIssued hm hwf hend h
    · exact absurd (hh.symm.trans hhang) nofun
    · exact ⟨hw, by rw [hleft, hh]; rfl⟩

/-! ### Wire frames as micro-operations (log 14) -/

/-- The micro-operations that carry a wire frame; a micro-operation carries itself. -/
def carriers : Instr → List Instr
  | .devAddr => [.saddr Config.devAddr]
  | .calinit => Config.cmdCalinit.map .wb
  | .trigger => Config.cmdTrigger.map .wb
  | .resp _ _ _ => List.map rbOf [0, 1, 2, 3, 4, 5]
  | .status _ => [rbOf 0]
  | i => [i]

/-- The bytes a wire frame has the transport return. -/
def carriedBytes : Instr → List Byte
  | .resp st h t => respBytes st h t
  | .status b => [b]
  | _ => []

theorem execEach_singleton (i : Instr) (s : State) : execEach [i] s = exec i s := by
  have hnext : onReturn (execEach []) = .next := funext fun _ => ite_self _
  rw [execEach, hnext, andThen_next_right]

theorem exec_eq_execEach (hi : i.isHostOp = false) (s : State) :
    exec i s = execEach (carriers i) (s.supply (carriedBytes i)) := by
  cases i with
  | calinit => exact congrFun (sendBytes_eq_execEach Config.cmdCalinit) s
  | trigger => exact congrFun (sendBytes_eq_execEach Config.cmdTrigger) s
  | resp st h t => exact congrFun (receiveBytes_eq_execEach [0, 1, 2, 3, 4, 5]) (s.supply (respBytes st h t))
  | init | read | getth | fmt => cases hi
  | devAddr | status | saddr | scnt | srd | swr | start | stop | wb | rb | dly | endOp =>
    exact (execEach_singleton _ _).symm

theorem carriers_isMicroOp_wellFormed (hi : i.isHostOp = false) (hwf : i.wellFormed = true) :
    ∀ c ∈ carriers i, c.isMicroOp = true ∧ c.wellFormed = true := by
  cases i with
  | init | read | getth | fmt => cases hi
  | devAddr | calinit | trigger | resp | status => simp only [carriers]; decide
  | saddr | scnt | srd | swr | start | stop | wb | rb | dly | endOp =>
    intro c hc
    obtain rfl := List.mem_singleton.mp hc
    exact ⟨rfl, hwf⟩

/-- The first micro-operation of a frame issues the frame's first primitive. -/
theorem exists_first_carrier (hi : i.isHostOp = false) :
    ∃ c cs, carriers i = c :: cs ∧ ∀ s, firstEvent c (s.supply (carriedBytes i)) = firstEvent i s := by
  cases i with
  | init | read | getth | fmt => cases hi
  | devAddr | calinit | trigger | resp | status | saddr | scnt | srd | swr | start | stop | wb | rb | dly | endOp =>
    exact ⟨_, _, rfl, fun _ => rfl⟩

/-- An instruction of the sequencer begins with a micro-operation, and goes on only if the primitive of that returns. -/
theorem exists_exec_first (hi : i.isHostOp = false) (hwf : i.wellFormed = true) :
    ∃ c rest, c.isMicroOp = true ∧ c.wellFormed = true ∧
      (∀ s, firstEvent c (s.supply (carriedBytes i)) = firstEvent i s) ∧
      ∀ s, exec i s = andThen (exec c (s.supply (carriedBytes i))) (onReturn rest) := by
  obtain ⟨c, cs, hcs, he⟩ := exists_first_carrier hi
  obtain ⟨hm, hcwf⟩ := carriers_isMicroOp_wellFormed hi hwf c (hcs ▸ List.mem_cons_self)
  exact ⟨c, execEach cs, hm, hcwf, he, fun s => (exec_eq_execEach hi s).trans (by rw [hcs, execEach])⟩

/-! ### The idle, the waiting and the hanging block (R130, R144) -/

/-- Settles O22: the first micro-operation is refused already. -/
theorem microOpsHaveNoStepWhenIdle : Obligations.MicroOpsHaveNoStepWhenIdle := by
  intro i s hi hwf ha
  obtain ⟨c, rest, hm, hcwf, _, hexec⟩ := exists_exec_first hi hwf
  rw [hexec, exec_microOp_idle hm hcwf (s := s.supply _) ha, andThen_refused]

theorem exec_waiting (hi : i.isHostOp = false) (hwf : i.wellFormed = true) (ha : s.active = true)
    (hw : s.waiting = true) : exec i s = .fault .stuck := by
  obtain ⟨c, rest, hm, hcwf, _, hexec⟩ := exists_exec_first hi hwf
  rw [hexec, exec_microOp_waiting hm hcwf (s := s.supply _) ha hw, andThen_fault]

/-- R30, R256: the host is blocked while an operation runs. -/
theorem exec_hostOp_busy (hi : i.isHostOp = true) (ha : s.active = true) : exec i s = .refused .busy := by
  cases i with
  | init | read | getth | fmt => exact if_pos ha
  | devAddr | calinit | trigger | resp | status | saddr | scnt | srd | swr | start | stop | wb | rb | dly | endOp =>
    cases hi

/-- Settles O28: the waiting block is stuck by R144, and its host blocked by R30. -/
theorem aWaitingBlockRunsNothing : Obligations.AWaitingBlockRunsNothing :=
  fun _ ha hw => ⟨step_waiting hw, fun _ hi hwf => exec_waiting hi hwf ha hw, fun _ hi => exec_hostOp_busy hi ha,
    fun _ => hostRead_busy ha⟩

theorem isHostOp_eq_false_of_firstEvent (he : firstEvent i s = some e) : i.isHostOp = false := by
  cases i with
  | init | read | getth | fmt => cases he
  | _ => rfl

/-- Settles O27: the first micro-operation waits, and nothing follows it. -/
theorem aNeverReturningPrimitiveIsStuck : Obligations.ANeverReturningPrimitiveIsStuck := by
  intro i s e he hwf ha hw hh
  obtain ⟨c, rest, hm, hcwf, hfirst, hexec⟩ := exists_exec_first (isHostOp_eq_false_of_firstEvent he) hwf
  have hissues := exec_microOp_issuesOne hm hcwf ((hfirst s).trans he)
  obtain ⟨env, draws, hc⟩ := hissues.hangs ha hw hh
  rw [hexec, hc, andThen_next, onReturn_waiting rfl]
  exact ⟨_, rfl, rfl, fun n => by rw [steps, step_waiting rfl, andThen_fault]⟩

/-! ### Who can stop the block (R144, R250) -/

theorem andThen_onReturn_ne_fault {o : Out} {f : State → Out} {r : Fault} (ho : o ≠ .fault r)
    (hf : ∀ u : State, u.waiting = false → f u ≠ .fault r) : andThen o (onReturn f) ≠ .fault r := by
  cases o with
  | fault r' => exact ho
  | refused r' => exact nofun
  | next u =>
    rw [andThen_next, onReturn]
    split
    · exact nofun
    · next hw => exact hf u (by simpa using hw)

theorem execEach_ne_fault (r : Fault) : ∀ {is : List Instr} {s : State},
    (∀ c ∈ is, c.isMicroOp = true ∧ c.wellFormed = true) → s.waiting = false → execEach is s ≠ .fault r
  | [], _, _, _ => nofun
  | c :: cs, s, hcs, hw => by
    obtain ⟨hm, hwf⟩ := hcs c List.mem_cons_self
    exact andThen_onReturn_ne_fault (exec_microOp_ne_fault hm hwf hw r) fun _ hu =>
      execEach_ne_fault r (fun c hc => hcs c (List.mem_cons_of_mem _ hc)) hu

theorem execEach_returns : ∀ {is : List Instr} {s t : State},
    (∀ c ∈ is, c.isMicroOp = true ∧ c.wellFormed = true) → s.waiting = false → s.hangIn = none →
      execEach is s = .next t → t.waiting = false
  | [], _, _, _, hw, _, h => Host.Outcome.next.inj h ▸ hw
  | c :: cs, s, t, hcs, _, hh, h => by
    obtain ⟨hm, hwf⟩ := hcs c List.mem_cons_self
    obtain ⟨u, hu, ht⟩ := andThen_eq_next h
    obtain ⟨huw, huh⟩ := exec_microOp_returns hm hwf hh hu
    rw [onReturn_of_returned huw] at ht
    exact execEach_returns (fun c hc => hcs c (List.mem_cons_of_mem _ hc)) huw huh ht

theorem acceptMeasurement_ne_fault (o : BitVec 2) (r : Fault) : acceptMeasurement o s ≠ .fault r := by
  unfold acceptMeasurement
  split_ifs <;> exact nofun

/-- R256: a host operation is accepted or refused. -/
theorem exec_hostOp_ne_fault (hi : i.isHostOp = true) (r : Fault) : exec i s ≠ .fault r := by
  cases i with
  | init b => simp only [exec, execInit]; split_ifs <;> exact nofun
  | read => exact acceptMeasurement_ne_fault opRead r
  | getth => exact acceptMeasurement_ne_fault opGetth r
  | fmt v => simp only [exec, execFmt]; split_ifs <;> exact nofun
  | devAddr | calinit | trigger | resp | status | saddr | scnt | srd | swr | start | stop | wb | rb | dly | endOp =>
    cases hi

/-- R250: no instruction faults in a block that waits for nothing. -/
theorem exec_ne_fault (hwf : i.wellFormed = true) (hw : s.waiting = false) (r : Fault) : exec i s ≠ .fault r := by
  cases hi : i.isHostOp with
  | true => exact exec_hostOp_ne_fault hi r
  | false =>
    rw [exec_eq_execEach hi]
    exact execEach_ne_fault r (carriers_isMicroOp_wellFormed hi hwf) hw

/-- R144: an instruction leaves the block waiting only in a running block whose environment hangs. -/
theorem exec_comes_to_wait (hwf : i.wellFormed = true) (hw : s.waiting = false) (h : exec i s = .next t)
    (ht : t.waiting = true) : s.active = true ∧ s.hangIn ≠ none := by
  cases hi : i.isHostOp with
  | true =>
    obtain ⟨_, _, hkept⟩ := exec_bus h (by simp [Instr.issues, hi])
    exact absurd (ht.symm.trans (hkept.trans hw)) (by decide)
  | false =>
    refine ⟨?active, fun hh => ?hangs⟩
    case active =>
      by_contra ha
      rw [microOpsHaveNoStepWhenIdle i s hi hwf (by simpa using ha)] at h
      cases h
    case hangs =>
      rw [exec_eq_execEach hi] at h
      have hreturned := execEach_returns (s := s.supply _) (carriers_isMicroOp_wellFormed hi hwf) hw hh h
      exact absurd (ht.symm.trans hreturned) (by decide)

theorem step_ne_fault (hw : s.waiting = false) (r : Fault) : step s ≠ .fault r := by
  obtain ⟨hw', _⟩ | ⟨_, _, hs⟩ | ⟨_, w, s1, i, hf, hd, hs⟩ | ⟨_, _, _, _, _, _, hs⟩ := step_cases s
  · exact absurd (hw.symm.trans hw') (by decide)
  · exact hs ▸ nofun
  · rw [hs]
    exact exec_ne_fault (decodedInstructionsAreWellFormed w i hd) (by rw [fetch_keeps hf]; exact hw) r
  · exact hs ▸ nofun

theorem step_comes_to_wait (h : step s = .next t) (ht : t.waiting = true) : s.active = true ∧ s.hangIn ≠ none := by
  obtain ⟨_, hs⟩ | ⟨hw, _, hs⟩ | ⟨hw, w, s1, i, hf, hd, hs⟩ | ⟨_, _, _, _, _, _, hs⟩ := step_cases s <;> rw [hs] at h
  case inr.inl => exact absurd (ht.symm.trans (Host.Outcome.next.inj h ▸ hw)) (by decide)
  case inr.inr.inl =>
    have hs1 := fetch_keeps hf
    have hcomes := exec_comes_to_wait (decodedInstructionsAreWellFormed w i hd) (by rw [hs1]; exact hw) h ht
    rw [hs1] at hcomes
    exact hcomes
  all_goals cases h

/-- Settles O26: a block that waits for nothing does not fault, and what comes to wait has issued a primitive. -/
theorem onlyACollaboratorCanStopTheBlock : Obligations.OnlyACollaboratorCanStopTheBlock := by
  refine fun s => ⟨fun f h => ?fault, fun t h => ⟨returned_of_step h, step_comes_to_wait h⟩⟩
  cases hw : s.waiting with
  | false => exact absurd h (step_ne_fault hw f)
  | true => exact ⟨(Host.Outcome.fault.inj ((step_waiting hw).symm.trans h)).symm, rfl⟩

end Sys2Proof.Machine
end

section
/-! SUPPORT. What each micro-operation of the two programs asks of the transport, and that it finds it so; with the
statement made of it. -/

namespace Sys2Proof.Machine

variable {d : Delays} {s t : State} {u : Nat} {i : Instr} {r : Transport}

/-! ### What a micro-operation asks (R131 to R139, R145) -/

/-- What the transport has to be before a micro-operation for the bus discipline of R145 to hold through it. -/
def Ready : Instr → Transport → Prop
  | .wb _, r => r.isOpen = true ∧ r.mode = .write ∧ r.xfer.toNat < r.nbytes.toNat
  | .rb i, r => r.isOpen = true ∧ r.mode = .read ∧ r.xfer.toNat = i.toNat ∧ r.nbytes = 6#8
  | .stop, r => r.isOpen = true ∧ r.xfer = r.nbytes
  | .dly _, r => r.isOpen = false
  | .start, r => r.addr = 0x38#7 ∧ ((r.nbytes = 3#8 ∧ r.mode = .write) ∨ (r.nbytes = 6#8 ∧ r.mode = .read))
  | _, _ => True

/-- The micro-operations that stand inside a transaction (R145). -/
def insideTransfer : Instr → Bool
  | .wb _ | .rb _ | .stop => true
  | _ => false

/-- The micro-operations after which a transaction is open. -/
def leavesOpen : Instr → Bool
  | .start | .wb _ | .rb _ => true
  | _ => false

/-- What the micro-operation at a ROM index before an END tells of its place: inside a transaction or not, before it and
after it; and INIT's words 1 and 2 set the byte count and the direction (R100). -/
structure ProgramWord (u : Nat) (i : Instr) : Prop where
  before : inTransfer u = insideTransfer i
  after : inTransfer (u + 1) = leavesOpen i
  setsCount : u = 1 → i = .scnt 3#8
  setsMode : u = 2 → i = .swr

theorem programWord_programAt (d : Delays) {u : Nat} (hu : BeforeEnd u) : ProgramWord u (programAt d u) where
  before := by obtain hu | ⟨h10, h30⟩ := hu <;> interval_cases u <;> rfl
  after := by obtain hu | ⟨h10, h30⟩ := hu <;> interval_cases u <;> rfl
  setsCount h1 := h1 ▸ rfl
  setsMode h2 := h2 ▸ rfl

/-! ### What it finds (R161, R166) -/

namespace InitTransport

theorem ready_wb (h : InitTransport u r) (h4 : 4 ≤ u) (h6 : u ≤ 6) (b : Byte) : Ready (.wb b) r := by
  have hu : inTransfer u = true := by interval_cases u <;> rfl
  refine ⟨(h.isOpen h4).trans hu, h.mode (by omega), ?_⟩
  rw [h.xfer hu, h.nbytes (by omega), movedAt, if_pos (by omega)]
  exact (by omega : u - 4 < 3)

theorem ready_stop (h : InitTransport 7 r) : Ready .stop r :=
  ⟨h.isOpen (by decide), BitVec.eq_of_toNat_eq ((h.xfer rfl).trans (by rw [h.nbytes (by decide)]; rfl))⟩

/-- R161: INIT's micro-operations find the transport ready. -/
theorem ready (d : Delays) : ∀ u : Nat, u ≤ 9 → InitTransport u r → Ready (programAt d u) r
  | 0, _, _ | 1, _, _ | 2, _, _ | 9, _, _ => trivial
  | 3, _, h => ⟨h.addr (by decide), .inl ⟨h.nbytes (by decide), h.mode (by decide)⟩⟩
  | 4, _, h | 5, _, h | 6, _, h => h.ready_wb (by decide) (by decide) _
  | 7, _, h => h.ready_stop
  | 8, _, h => h.isOpen (by decide)
  | u + 10, hu, _ => absurd hu (by omega)

end InitTransport

namespace ReadTransport

theorem ready_wb (h : ReadTransport u r) (h13 : 13 ≤ u) (h15 : u ≤ 15) (b : Byte) : Ready (.wb b) r := by
  have hu : inTransfer u = true := by interval_cases u <;> rfl
  refine ⟨h.isOpen.trans hu, h.mode.trans (if_neg (by omega)), ?_⟩
  rw [h.xfer hu, h.nbytes (by omega), movedAt, if_neg (by omega), if_pos (by omega), if_pos (by omega)]
  exact (by omega : u - 13 < 3)

theorem ready_rb {k : BitVec 3} (h : ReadTransport (21 + k.toNat) r) (hk : k.toNat ≤ 5) : Ready (.rb k) r := by
  have hu : inTransfer (21 + k.toNat) = true := by simp [inTransfer]; omega
  refine ⟨h.isOpen.trans hu, h.mode.trans (if_pos (by omega)), (h.xfer hu).trans ?_,
    (h.nbytes (by omega)).trans (if_neg (by omega))⟩
  rw [movedAt, if_neg (by omega), if_neg (by omega), Nat.add_sub_cancel_left]

theorem ready_stop (h : ReadTransport u r) (hu : u = 16 ∨ u = 27) : Ready .stop r := by
  obtain rfl | rfl := hu
  all_goals exact ⟨h.isOpen, BitVec.eq_of_toNat_eq ((h.xfer rfl).trans (by rw [h.nbytes (by decide)]; rfl))⟩

/-- R166: the micro-operations of READ find the transport ready. -/
theorem ready (d : Delays) : ∀ u : Nat, 10 ≤ u → u ≤ 30 → ReadTransport u r → Ready (programAt d u) r
  | 10, _, _, _ | 11, _, _, _ | 18, _, _, _ | 19, _, _, _ | 28, _, _, _ | 30, _, _, _ => trivial
  | 12, _, _, h => ⟨h.addr, .inl ⟨h.nbytes (by decide), h.mode⟩⟩
  | 20, _, _, h => ⟨h.addr, .inr ⟨h.nbytes (by decide), h.mode⟩⟩
  | 13, _, _, h | 14, _, _, h | 15, _, _, h => h.ready_wb (by decide) (by decide) _
  | 16, _, _, h => h.ready_stop (.inl rfl)
  | 27, _, _, h => h.ready_stop (.inr rfl)
  | 17, _, _, h | 29, _, _, h => h.isOpen
  | 21, _, _, h => h.ready_rb (k := 0#3) (by decide)
  | 22, _, _, h => h.ready_rb (k := 1#3) (by decide)
  | 23, _, _, h => h.ready_rb (k := 2#3) (by decide)
  | 24, _, _, h => h.ready_rb (k := 3#3) (by decide)
  | 25, _, _, h => h.ready_rb (k := 4#3) (by decide)
  | 26, _, _, h => h.ready_rb (k := 5#3) (by decide)
  | 0, hu, _, _ | 1, hu, _, _ | 2, hu, _, _ | 3, hu, _, _ | 4, hu, _, _ | 5, hu, _, _ | 6, hu, _, _ | 7, hu, _, _
  | 8, hu, _, _ | 9, hu, _, _ => absurd hu (by decide)
  | u + 31, _, hu, _ => absurd hu (by omega)

end ReadTransport

/-! ### Under the invariant -/

/-- The micro-operations that configure the transport (R131 to R134). -/
def configures : Instr → Bool
  | .saddr _ | .scnt _ | .srd | .swr => true
  | _ => false

theorem insideTransfer_of_configures (h : configures i = true) : insideTransfer i = false := by
  cases i with
  | saddr | scnt | srd | swr => rfl
  | _ => cases h

/-- R161: INIT configures with its first three words only. -/
theorem lt_3_of_configures (d : Delays) : ∀ u : Nat, u ≤ 9 → configures (programAt d u) = true → u < 3
  | 0, _, _ | 1, _, _ | 2, _, _ => by decide
  | 3, _, h | 4, _, h | 5, _, h | 6, _, h | 7, _, h | 8, _, h | 9, _, h => nomatch h
  | u + 10, hu, _ => absurd hu (by omega)

/-- R62, R101: INIT's words are 0 to 9. -/
theorem InProgram.le_9 {o : BitVec 2} {u : BitVec 5} (h : InProgram o u) (ho : o = opInit) : u.toNat ≤ 9 := by
  obtain ⟨_, h9⟩ | ⟨hr, _⟩ := h
  · exact h9
  · exact absurd ho (ne_opInit hr)

namespace Inv

theorem ready (h : Inv d s) (ha : s.active = true) : Ready (programAt d s.upc.toNat) s.tr := by
  obtain ⟨ho, h9⟩ | ⟨ho, h10, h30⟩ := h.program ha
  · exact (h.initTransport ha ho).ready d _ h9
  · exact (h.readTransport ha (ne_opInit ho)).ready d _ h10 h30

/-- R100: the word at UPC is that of the micro-operation the programs list there. -/
theorem decode_romWord (h : Inv d s) (ha : s.active = true) :
    decode (.u24 (romWord s)) = .ok (programAt d s.upc.toNat) := by
  simp only [romWord, h.rom]
  exact decode_romOf d _ (h.program ha).le_30

/-- In READ and GETTH the transport is open inside the transactions of the program only. -/
theorem closed_outside (h : Inv d s) (ha : s.active = true) (ho : s.op ≠ opInit)
    (hi : insideTransfer (programAt d s.upc.toNat) = false) : s.tr.isOpen = false := by
  rw [(h.readTransport ha ho).isOpen]
  obtain hu | ⟨hinit, _⟩ | ⟨_, hu⟩ := (h.program ha).beforeEnd_or
  · exact (programWord_programAt d hu).before.trans hi
  · exact absurd hinit ho
  · rw [hu]
    rfl

end Inv

/-- Settles O38: the decoded word is the one the program lists, and that one finds the transport ready. -/
theorem transportIsReadyForEachPrimitive : Obligations.TransportIsReadyForEachPrimitive := by
  intro d s h ha
  have heq {i : Instr} (hi : decode (.u24 (romWord s)) = .ok i) : programAt d s.upc.toNat = i :=
    Except.ok.inj ((h.decode_romWord ha).symm.trans hi)
  have hready {i : Instr} (hi : decode (.u24 (romWord s)) = .ok i) : Ready i s.tr := heq hi ▸ h.ready ha
  have hclosed {i : Instr} (hi : decode (.u24 (romWord s)) = .ok i) (hout : insideTransfer i = false)
      (ho : s.op ≠ opInit) : s.tr.isOpen = false := h.closed_outside ha ho (heq hi ▸ hout)
  refine ⟨fun b hb => hready hb, fun k hk => hready hk, fun hi => hready hi, fun n hn => hready hn, fun hi => ?start,
    fun i hi hconf => ?configuration⟩
  case start =>
    obtain ⟨haddr, hcfg⟩ := hready hi
    exact ⟨haddr, hcfg, hclosed hi rfl⟩
  case configuration =>
    have hc : configures i = true := by obtain ⟨_, rfl⟩ | ⟨_, rfl⟩ | rfl | rfl := hconf <;> rfl
    exact ⟨hclosed hi (insideTransfer_of_configures hc),
      fun ho => lt_3_of_configures d _ ((h.program ha).le_9 ho) (heq hi ▸ hc)⟩

end Sys2Proof.Machine
end

section
/-! SUPPORT. The bus monitor along the micro-programs: each event of a ready micro-operation is accepted, and the
monitor's knowledge of the transport goes on; with the statement made of it. -/

namespace Sys2Proof.Machine

variable {d : Delays} {s t : State} {u : Nat} {i : Instr} {e : Event} {r : Transport} {o o' : Monitor}

/-! ### The monitor (R145) -/

theorem Monitor.run_append : ∀ {es : List Event} {o o1 : Monitor}, o.run es = some o1 →
    ∀ fs, o.run (es ++ fs) = o1.run fs
  | [], _, _, h, _ => Option.some.inj h ▸ rfl
  | e :: es, o, o1, h, fs => by
    rw [Monitor.run] at h
    rw [List.cons_append, Monitor.run]
    split at h
    · cases h
    · exact Monitor.run_append h fs

theorem Monitor.run_snoc {es : List Event} {o2 : Monitor} (h : o.run es = some o') (he : o'.observe e = some o2) :
    o.run (es ++ [e]) = some o2 := by
  rw [Monitor.run_append h, Monitor.run, he]
  rfl

theorem Monitor.transfer_eq {m : Direction} {k c : Nat} (hmoved : o.moved = some k) (hcount : o.count = some c)
    (hmode : o.mode = some m) (hlt : k < c) : o.transfer m = some { o with moved := some (k + 1) } := by
  simp [Monitor.transfer, hmoved, hcount, hmode, hlt]

/-- What the monitor knows of a running block before ROM index `u`: the bytes moved in the open transaction, and
TR_NBYTES and TR_MODE once INIT has set them. -/
structure MonitorAt (u : Nat) (r : Transport) (o : Monitor) : Prop where
  moved : o.moved = if inTransfer u = true then some r.xfer.toNat else none
  count : 2 ≤ u → o.count = some r.nbytes.toNat
  mode : 3 ≤ u → o.mode = some r.mode

/-- No transaction is open before INIT's START, word 3, has run. -/
theorem four_le_of_inTransfer (h : inTransfer u = true) : 4 ≤ u := by
  simp only [inTransfer, Bool.or_eq_true, decide_eq_true_eq] at h
  omega

namespace MonitorAt

theorem closed (h : MonitorAt u r o) (hw : ProgramWord u i) (hi : insideTransfer i = false) : o.moved = none := by
  rw [h.moved, hw.before, hi]
  rfl

theorem opened (h : MonitorAt u r o) (hw : ProgramWord u i) (hi : insideTransfer i = true) :
    o.moved = some r.xfer.toNat ∧ o.count = some r.nbytes.toNat ∧ o.mode = some r.mode := by
  have hu : inTransfer u = true := hw.before.trans hi
  have h4 := four_le_of_inTransfer hu
  exact ⟨by rw [h.moved, if_pos hu], h.count (by omega), h.mode (by omega)⟩

theorem two_le_of_ne_scnt (hw : ProgramWord u i) (hi : i ≠ .scnt 3#8) (hu : 2 ≤ u + 1) : 2 ≤ u := by
  have h1 : u ≠ 1 := fun h1 => hi (hw.setsCount h1)
  omega

theorem three_le_of_ne_swr (hw : ProgramWord u i) (hi : i ≠ .swr) (hu : 3 ≤ u + 1) : 3 ≤ u := by
  have h2 : u ≠ 2 := fun h2 => hi (hw.setsMode h2)
  omega

theorem of_closed (hw : ProgramWord u i) (hi : leavesOpen i = false) (hmoved : o.moved = none)
    (hcount : 2 ≤ u + 1 → o.count = some r.nbytes.toNat) (hmode : 3 ≤ u + 1 → o.mode = some r.mode) :
    MonitorAt (u + 1) r o :=
  ⟨by rw [hmoved, hw.after, hi]; rfl, hcount, hmode⟩

theorem of_open (hw : ProgramWord u i) (hi : leavesOpen i = true) (hmoved : o.moved = some r.xfer.toNat)
    (hcount : o.count = some r.nbytes.toNat) (hmode : o.mode = some r.mode) : MonitorAt (u + 1) r o :=
  ⟨by rw [hmoved, hw.after, hi]; rfl, fun _ => hcount, fun _ => hmode⟩

/-- One byte more in the open transaction. -/
theorem transfer (h : MonitorAt u r o) (hw : ProgramWord u i) (hin : insideTransfer i = true)
    (hout : leavesOpen i = true) {m : Direction} (hm : r.mode = m) (hlt : r.xfer.toNat < r.nbytes.toNat) :
    ∃ o', o.transfer m = some o' ∧ MonitorAt (u + 1) { r with xfer := nextXfer r.xfer } o' := by
  obtain ⟨hmoved, hcount, hmode⟩ := h.opened hw hin
  have hnext : (nextXfer r.xfer).toNat = r.xfer.toNat + 1 := nextXfer_toNat (by omega)
  exact ⟨_, Monitor.transfer_eq hmoved hcount (hm ▸ hmode) hlt, of_open hw hout (congrArg some hnext.symm) hcount hmode⟩

/-- R145: the monitor accepts the event of a micro-operation that finds the transport ready, and goes on knowing it. -/
theorem observe (h : MonitorAt u s.tr o) (hw : ProgramWord u i) (hready : Ready i s.tr) (hm : i.isMicroOp = true)
    (hwf : i.wellFormed = true) (he : firstEvent i s = some e) :
    ∃ o', o.observe e = some o' ∧ MonitorAt (u + 1) (transportAfter i s.tr) o' := by
  cases i with
  | saddr | dly =>
    obtain rfl := Option.some.inj he
    have hclosed := h.closed hw rfl
    exact ⟨o, if_pos hclosed, of_closed hw rfl hclosed (fun hu => h.count (two_le_of_ne_scnt hw nofun hu))
      fun hu => h.mode (three_le_of_ne_swr hw nofun hu)⟩
  | scnt n =>
    obtain rfl := Option.some.inj he
    have hclosed := h.closed hw rfl
    exact ⟨_, if_pos hclosed, of_closed hw rfl hclosed (fun _ => rfl)
      fun hu => h.mode (three_le_of_ne_swr hw nofun hu)⟩
  | srd | swr =>
    obtain rfl := Option.some.inj he
    have hclosed := h.closed hw rfl
    exact ⟨_, if_pos hclosed, of_closed hw rfl hclosed (fun hu => h.count (two_le_of_ne_scnt hw nofun hu))
      fun _ => rfl⟩
  | start =>
    obtain rfl := Option.some.inj he
    have h4 := four_le_of_inTransfer (hw.after.trans rfl)
    have hcount := h.count (by omega)
    have hmode := h.mode (by omega)
    exact ⟨_, if_pos ⟨h.closed hw rfl, by simp [hcount], by simp [hmode]⟩, of_open hw rfl rfl hcount hmode⟩
  | stop =>
    obtain rfl := Option.some.inj he
    obtain ⟨_, hfull⟩ := hready
    obtain ⟨hmoved, hcount, hmode⟩ := h.opened hw rfl
    exact ⟨_, if_pos ⟨by simp [hmoved], by rw [hmoved, hcount, hfull]⟩,
      of_closed hw rfl rfl (fun _ => hcount) fun _ => hmode⟩
  | wb b =>
    obtain rfl := Option.some.inj he
    obtain ⟨_, hmode, hlt⟩ := hready
    exact h.transfer hw rfl rfl hmode hlt
  | rb k =>
    obtain rfl := Option.some.inj he
    obtain ⟨_, hmode, hxfer, hnbytes⟩ := hready
    have hk : k.toNat ≤ 5 := of_decide_eq_true hwf
    exact h.transfer hw rfl rfl hmode (by rw [hxfer, hnbytes]; exact Nat.lt_succ_of_le hk)
  | init | read | getth | fmt | endOp => cases he
  | devAddr | calinit | trigger | resp | status => cases hm

end MonitorAt

/-! ### The discipline over the micro-operations -/

/-- In a running block that waits for nothing, the discipline is what the monitor knows at UPC. -/
theorem busInv_running_iff (ha : s.active = true) (hb : s.bound = true) (hw : s.waiting = false) :
    BusInv s ↔ ∃ o, Monitor.fresh.run s.ev = some o ∧ MonitorAt s.upc.toNat s.tr o := by
  refine exists_congr fun o => and_congr_right fun _ => ⟨fun h => ?_, fun h _ => ?_⟩
  · obtain ⟨hmoved, hcount, hmode⟩ := h hw
    exact ⟨by simpa [ha] using hmoved, fun hu => hcount hb fun _ => hu, fun hu => hmode hb fun _ => hu⟩
  · exact ⟨by simpa [ha] using h.moved, fun _ hu => h.count (hu ha), fun _ hu => h.mode (hu ha)⟩

/-- In an idle block it is that the monitor knows of no open transaction, and, once bound, count and direction. -/
theorem busInv_idle_iff (ha : s.active = false) (hw : s.waiting = false) :
    BusInv s ↔ ∃ o, Monitor.fresh.run s.ev = some o ∧ o.moved = none ∧
      (s.bound = true → o.count = some s.tr.nbytes.toNat ∧ o.mode = some s.tr.mode) := by
  refine exists_congr fun o => and_congr_right fun _ => ⟨fun h => ?_, fun ⟨hmoved, hknown⟩ _ => ?_⟩
  · obtain ⟨hmoved, hcount, hmode⟩ := h hw
    exact ⟨by simpa [ha] using hmoved, fun hb => ⟨hcount hb (by simp [ha]), hmode hb (by simp [ha])⟩⟩
  · exact ⟨by simpa [ha] using hmoved, fun hb _ => (hknown hb).1, fun hb _ => (hknown hb).2⟩

/-- R144: a waiting block's history is accepted, no more. -/
theorem busInv_of_waiting (hw : s.waiting = true) (h : Monitor.fresh.run s.ev = some o) : BusInv s :=
  ⟨o, h, fun hw' => absurd (hw.symm.trans hw') (by decide)⟩

namespace BusInv

/-- R131 to R139: a micro-operation before an END, whether its primitive returns or not. -/
theorem microOp (hbus : BusInv s) (h : Inv d s) (hu : BeforeEnd s.upc.toNat)
    (he : exec (programAt d s.upc.toNat) s = .next t) : BusInv t := by
  obtain ⟨hm, hne⟩ := programAt_microOp d hu
  obtain ⟨e, hfirst⟩ := exists_firstEvent hm hne s
  obtain ⟨ha, hw, hf, hend⟩ := exec_microOp_effect hm hne he
  have hle := (h.program ha).le_30
  have hwf := (programAt_isMicroOp_wellFormed d hle).2
  obtain ⟨o, hrun, hat⟩ := (busInv_running_iff ha (h.bound ha) hw).mp hbus
  obtain ⟨o', hobserve, hnext⟩ := hat.observe (programWord_programAt d hu) (h.ready ha) hm hwf hfirst
  have hrun' : Monitor.fresh.run t.ev = some o' := by
    rw [(exec_microOp_issuesOne hm hwf hfirst).ev he]
    exact Monitor.run_snoc hrun hobserve
  cases hend with
  | hangs hwait => exact busInv_of_waiting hwait hrun'
  | done hwait hupc htr =>
    refine (busInv_running_iff (hf.active.trans ha) (hf.bound.trans (h.bound ha)) hwait).mpr ⟨o', hrun', ?_⟩
    rw [hupc, nextUpc_toNat (Nat.lt_succ_of_le hle), htr]
    exact hnext

/-- R140: END stands outside the transactions, its block bound and its count and direction known. -/
theorem endOp (hbus : BusInv s) (h : Inv d s) (hu : s.upc.toNat = 9 ∨ s.upc.toNat = 30)
    (he : exec .endOp s = .next t) : BusInv t := by
  obtain ⟨ha, hw, ht⟩ := execEnd_eq_next he
  obtain ⟨htr, hev, hwait⟩ := exec_bus he rfl
  obtain ⟨o, hrun, hat⟩ := (busInv_running_iff ha (h.bound ha) hw).mp hbus
  have hidle : t.active = false := by rw [ht]; split <;> rfl
  have hmoved : o.moved = none := by
    rw [hat.moved]
    obtain hu | hu := hu <;> rw [hu] <;> rfl
  refine (busInv_idle_iff hidle (hwait.trans hw)).mpr ⟨o, hev ▸ hrun, hmoved, fun _ => ?_⟩
  rw [htr]
  exact ⟨hat.count (by omega), hat.mode (by omega)⟩

/-- A host operation finds the bus idle and leaves it so. -/
theorem execHostOp (hbus : BusInv s) (ha : s.active = false) (hw : s.waiting = false) (hi : i.isHostOp = true)
    (he : exec i s = .next t) : BusInv t := by
  obtain ⟨o, hrun, hmoved, hknown⟩ := (busInv_idle_iff ha hw).mp hbus
  cases execNext_of_exec he with
  | init b =>
    exact (busInv_running_iff (s := (s.bind b).dispatch opInit initEntry) rfl rfl hw).mpr
      ⟨o, hrun, hmoved, fun hu => absurd hu (by decide : ¬2 ≤ initEntry.toNat),
        fun hu => absurd hu (by decide : ¬3 ≤ initEntry.toNat)⟩
  | read _ hb | getth _ hb =>
    obtain ⟨hcount, hmode⟩ := hknown hb
    exact (busInv_running_iff (s := s.dispatch _ readEntry) rfl hb hw).mpr
      ⟨o, hrun, hmoved, fun _ => hcount, fun _ => hmode⟩
  | fmt v => exact (busInv_idle_iff (s := s.writeString _) ha hw).mpr ⟨o, hrun, hmoved, hknown⟩
  | endGetth | endOther => cases hi
  | issues hissues _ => simp [Instr.issues, hi] at hissues

end BusInv

/-- Settles O36: a running block's micro-operation finds the transport ready; an idle one has no transaction open. -/
theorem everyStepKeepsTheBusDiscipline : Obligations.EveryStepKeepsTheBusDiscipline := by
  intro d s t h hbus hstep
  have hw := returned_of_step hstep
  cases ha : s.active with
  | true =>
    have hprogram := h.program ha
    rw [step_programAt h.rom h.wire ha hw hprogram.le_30] at hstep
    obtain hu | hu := hprogram.beforeEnd_or
    · exact hbus.microOp h hu hstep
    · have hu : s.upc.toNat = 9 ∨ s.upc.toNat = 30 := hu.imp And.right And.right
      have hend : programAt d s.upc.toNat = .endOp := by obtain hu | hu := hu <;> rw [hu] <;> rfl
      exact hbus.endOp h hu (hend ▸ hstep)
  | false =>
    obtain rfl | ⟨w, rest, i, _, hd, he⟩ := step_idle_cases h.wire ha hstep
    · exact hbus
    · exact BusInv.execHostOp (s := { s with hostq := rest }) hbus ha hw (isHostOp_of_decodeHop hd) he

end Sys2Proof.Machine
end

section
/-! SUPPORT. Two blocks alike in everything but data (R168) run alike: through each shared operation, each instruction
and the fetch; with the statement made of it. -/

namespace Sys2Proof.Machine

open Sys2Proof.Laws

variable {i : Instr} {s s' : State} {o o' : Out} {e e' : Event} {f f' : State → Out} {u u' : State → State}

/-! ### What keeps two blocks alike -/

namespace SameControl

theorem advance (h : SameControl s s') : SameControl s.advance s'.advance :=
  { h with upc := congrArg nextUpc h.upc }

/-- The transport configuration is no data: both blocks take it further in the same way. -/
theorem configure (h : SameControl s s') (f : Transport → Transport) :
    SameControl { s with tr := f s.tr } { s' with tr := f s'.tr } :=
  { h with tr := congrArg f h.tr }

/-- The bytes the environment still holds for the two blocks are data. -/
theorem draw (h : SameControl s s') (env env' : List Byte) (draws draws' : Nat) :
    SameControl { s with env := env, draws := draws } { s' with env := env', draws := draws' } :=
  { h with }

/-- The bytes received are data. -/
theorem setRaw (h : SameControl s s') (k : Fin 6) (b b' : Byte) : SameControl (s.setRaw k b) (s'.setRaw k b') :=
  { h with }

theorem dispatch (h : SameControl s s') (op : BitVec 2) (entry : BitVec 5) :
    SameControl (s.dispatch op entry) (s'.dispatch op entry) :=
  { h with upc := rfl, active := rfl, op := rfl }

theorem bind (h : SameControl s s') (b : BitVec 16) : SameControl (s.bind b) (s'.bind b) :=
  { h with bound := rfl }

theorem writeString (h : SameControl s s') (cs : List Byte) : SameControl (s.writeString cs) (s'.writeString cs) :=
  { h with }

theorem convert (h : SameControl s s') : SameControl (convert s) (convert s') :=
  { h with }

theorem finish (h : SameControl s s') : SameControl s.finish s'.finish :=
  { h with active := rfl }

/-- Two primitives that differ in the byte read at most return, or hang, in both blocks. -/
theorem issue (h : SameControl s s') (he : eraseRead e = eraseRead e') : SameControl (issue e s) (issue e' s') := by
  rw [issue_eq, issue_eq]
  exact
    { h with
      ev := by simp only [List.map_append, List.map_cons, h.ev, he]
      waiting := by rw [h.waiting, h.hangIn]
      hangIn := by rw [h.hangIn] }

end SameControl

/-! ### What keeps two outcomes alike -/

namespace SameOutcome

theorem next (h : SameControl s s') : SameOutcome (.next s) (.next s') := h

theorem andThen (ho : SameOutcome o o') (hf : ∀ {t t'}, SameControl t t' → SameOutcome (f t) (f' t')) :
    SameOutcome (andThen o f) (andThen o' f') := by
  cases o <;> cases o'
  case next.next => exact hf ho
  case fault.fault | refused.refused => exact ho
  all_goals exact ho.elim

theorem onReturn (h : SameControl s s') (hf : SameOutcome (f s) (f' s')) :
    SameOutcome (onReturn f s) (onReturn f' s') := by
  unfold Machine.onReturn
  rw [h.waiting]
  split
  · exact h
  · exact hf

theorem enabled (h : SameControl s s') (hf : SameOutcome (f s) (f' s')) :
    SameOutcome (enabled f s) (enabled f' s') := by
  unfold Machine.enabled
  rw [h.active, h.waiting]
  split_ifs
  · exact rfl
  · exact hf
  · exact rfl

theorem microStep (h : SameControl s s') (he : eraseRead e = eraseRead e')
    (hu : ∀ {t t'}, SameControl t t' → SameControl (u t) (u' t')) :
    SameOutcome (microStep e u s) (microStep e' u' s') := by
  have hissue := h.issue he
  exact enabled h (onReturn hissue (next (hu hissue).advance))

theorem acceptMeasurement (h : SameControl s s') (op : BitVec 2) :
    SameOutcome (acceptMeasurement op s) (acceptMeasurement op s') := by
  unfold Machine.acceptMeasurement
  rw [h.active, h.bound]
  split_ifs
  · exact rfl
  · exact h.dispatch op readEntry
  · exact rfl

end SameOutcome

/-! ### Each instruction -/

/-- R138, R168: the byte drawn goes into RAW and into its event, and nowhere else. -/
theorem receiveByte_sameOutcome (h : SameControl s s') (k : Fin 6) :
    SameOutcome (receiveByte k s) (receiveByte k s') :=
  .microStep (h.draw _ _ _ _) rfl fun ht => (ht.setRaw k _ _).configure fun r => { r with xfer := nextXfer r.xfer }

/-- R140: the conversion writes data only. -/
theorem execEnd_sameOutcome (h : SameControl s s') : SameOutcome (execEnd s) (execEnd s') := by
  refine .enabled h (.next ?_)
  rw [h.op]
  split
  · exact h.convert.finish
  · exact h.finish

theorem exec_hostOp_sameOutcome (hi : i.isHostOp = true) (h : SameControl s s') :
    SameOutcome (exec i s) (exec i s') := by
  cases i with
  | init b =>
    simp only [exec, execInit, h.active, h.bound]
    split_ifs
    · exact rfl
    · exact rfl
    · exact (h.bind b).dispatch opInit initEntry
  | read => exact .acceptMeasurement h opRead
  | getth => exact .acceptMeasurement h opGetth
  | fmt v =>
    simp only [exec, execFmt, h.active]
    split_ifs
    · exact rfl
    · exact h.writeString (centiText v)
  | devAddr | calinit | trigger | resp | status | saddr | scnt | srd | swr | start | stop | wb | rb | dly | endOp =>
    cases hi

theorem exec_microOp_sameOutcome (hm : i.isMicroOp = true) (h : SameControl s s') :
    SameOutcome (exec i s) (exec i s') := by
  cases i with
  | saddr a => exact .microStep h rfl fun ht => ht.configure fun r => { r with addr := a }
  | scnt n => exact .microStep h rfl fun ht => ht.configure fun r => { r with nbytes := n }
  | srd => exact .microStep h rfl fun ht => ht.configure fun r => { r with mode := .read }
  | swr => exact .microStep h rfl fun ht => ht.configure fun r => { r with mode := .write }
  | start => exact .microStep h rfl fun ht => ht.configure fun r => { r with isOpen := true, xfer := 0#8 }
  | stop => exact .microStep h rfl fun ht => ht.configure fun r => { r with isOpen := false }
  | wb b => exact .microStep h rfl fun ht => ht.configure fun r => { r with xfer := nextXfer r.xfer }
  | dly n => exact .microStep h rfl id
  | rb k =>
    simp only [exec, execRb]
    split
    · exact rfl
    · exact receiveByte_sameOutcome h _
  | endOp => exact execEnd_sameOutcome h
  | init | read | getth | fmt | devAddr | calinit | trigger | resp | status => cases hm

theorem execEach_sameOutcome : ∀ {is : List Instr} {s s' : State}, (∀ c ∈ is, c.isMicroOp = true) →
    SameControl s s' → SameOutcome (execEach is s) (execEach is s')
  | [], _, _, _, h => h
  | c :: _, _, _, hcs, h =>
    .andThen (exec_microOp_sameOutcome (hcs c List.mem_cons_self) h) fun ht =>
      .onReturn ht (execEach_sameOutcome (fun c hc => hcs c (List.mem_cons_of_mem _ hc)) ht)

/-- An instruction of the sequencer is the micro-operations that carry it (log 14). -/
theorem exec_sameOutcome (hwf : i.wellFormed = true) (h : SameControl s s') : SameOutcome (exec i s) (exec i s') := by
  cases hi : i.isHostOp with
  | true => exact exec_hostOp_sameOutcome hi h
  | false =>
    rw [exec_eq_execEach hi, exec_eq_execEach hi]
    exact execEach_sameOutcome (fun c hc => (carriers_isMicroOp_wellFormed hi hwf c hc).1) (h.draw _ _ _ _)

/-! ### The fetch and the step -/

/-- R130, R168: the next word is chosen by control alone; two blocks alike fetch the same one, or none. -/
theorem fetch_alike (h : SameControl s s') :
    (fetch s = none ∧ fetch s' = none) ∨
      ∃ w t t', fetch s = some (w, t) ∧ fetch s' = some (w, t') ∧ SameControl t t' := by
  cases hw : s.wire with
  | cons f rest =>
    have hw' : s'.wire = f :: rest := h.wire.symm.trans hw
    exact .inr ⟨_, _, _, fetch_wire hw, fetch_wire hw', { h with wire := rfl }⟩
  | nil =>
    have hw' : s'.wire = [] := h.wire.symm.trans hw
    cases ha : s.active with
    | true =>
      have hrom : romWord s = romWord s' := by simp only [romWord, h.rom, h.upc]
      exact .inr ⟨_, _, _, fetch_active hw ha, hrom ▸ fetch_active hw' (h.active.symm.trans ha), h⟩
    | false =>
      have ha' : s'.active = false := h.active.symm.trans ha
      cases hq : s.hostq with
      | nil => exact .inl ⟨fetch_idle hw ha hq, fetch_idle hw' ha' (h.hostq.symm.trans hq)⟩
      | cons w rest =>
        have hq' : s'.hostq = w :: rest := h.hostq.symm.trans hq
        exact .inr ⟨_, _, _, fetch_host hw ha hq, fetch_host hw' ha' hq', { h with hostq := rfl }⟩

/-- Settles O41: two blocks alike fetch the same word, and its instruction runs alike in both. -/
theorem controlNeverDependsOnData : Obligations.ControlNeverDependsOnData := by
  intro s s' h
  unfold step
  rw [← h.waiting]
  split
  · exact rfl
  · obtain ⟨hf, hf'⟩ | ⟨w, t, t', hf, hf', ht⟩ := fetch_alike h
    · rw [hf, hf']
      exact h
    · rw [hf, hf']
      dsimp only
      split
      · next hd => exact exec_sameOutcome (decodedInstructionsAreWellFormed _ _ hd) ht
      · exact rfl

end Sys2Proof.Machine
end

section
/-! SUPPORT. A stretch of the ROM run where every primitive returns: the state it leaves, as a function of the
micro-operations in it; and the END after it, with the statement made of it. -/

namespace Sys2Proof.Machine

variable {d : Delays} {i : Instr} {is : List Instr} {s : State}

/-! ### What micro-operations leave whose primitives return (R131 to R139) -/

/-- The event of a micro-operation, `b` being the byte it reads if it reads one. -/
def eventReading (b : Byte) (i : Instr) : Option Event := firstEvent i (State.reset.supply [b])

/-- The events of micro-operations one after the other, the bytes they read being those of the stream `draw`. -/
def eventsReading (draw : Nat → Byte) : List Instr → List Event
  | [] => []
  | i :: is =>
    (eventReading (draw 0) i).toList ++ eventsReading (fun k => draw ((rawTargets i).length + k)) is

/-- What micro-operations other than END leave, one after the other, if all their primitives return. -/
def State.after (is : List Instr) (s : State) : State :=
  { s with
    ev := s.ev ++ eventsReading (nthDraw s) is
    raw := fill (is.flatMap rawTargets) ((List.range (is.flatMap rawTargets).length).map (nthDraw s)) s.raw
    rawWritten := fill (is.flatMap rawTargets) ((is.flatMap rawTargets).map fun _ => true) s.rawWritten
    tr := is.foldl (fun r i => transportAfter i r) s.tr
    env := s.env.drop (is.flatMap rawTargets).length
    draws := s.draws + (is.flatMap rawTargets).length
    upc := nextUpc^[is.length] s.upc }

theorem after_nil (s : State) : s.after [] = s := by
  simp [State.after, eventsReading, fill]

theorem nthDraw_after (is : List Instr) (s : State) (k : Nat) :
    nthDraw (s.after is) k = nthDraw s ((is.flatMap rawTargets).length + k) := by
  simp [nthDraw, State.after, Nat.add_assoc]

/-- R138: of the micro-operations only RB writes RAW, and one element of it. -/
theorem rawTargets_microOp (hm : i.isMicroOp = true) : rawTargets i = [] ∨ ∃ k, rawTargets i = [k] := by
  cases i with
  | rb k => cases h : rawIndex k <;> simp [rawTargets, h]
  | saddr | scnt | srd | swr | start | stop | wb | dly | endOp => exact .inl rfl
  | init | read | getth | fmt | devAddr | calinit | trigger | resp | status => cases hm

/-- What a list of micro-operations leaves is what its tail leaves after its head, so each is run once. -/
theorem after_cons (hm : i.isMicroOp = true) (is : List Instr) (s : State) :
    (s.after [i]).after is = s.after (i :: is) := by
  have hdraw : nthDraw (s.after [i]) = fun k => nthDraw s ((rawTargets i).length + k) := by
    funext k
    rw [nthDraw_after, List.flatMap_singleton]
  have hev : (s.after [i]).ev ++ eventsReading (nthDraw (s.after [i])) is
      = s.ev ++ eventsReading (nthDraw s) (i :: is) := by
    rw [hdraw]
    simp [State.after, eventsReading]
  rw [State.after, hev, hdraw]
  obtain hi | ⟨k, hi⟩ := rawTargets_microOp hm
  · simp [State.after, hi, fill]
  · simp [State.after, hi, fill, List.range_succ_eq_map, Nat.add_assoc, Nat.add_comm 1, Function.comp_def]

/-- R138: RB leaves the drawn byte in its element of RAW and in its event. -/
theorem after_rb (k : BitVec 3) (hk : k.toNat < 6) (s : State) :
    s.after [.rb k] =
      (({ s.consume with ev := s.ev ++ [Event.readByte (drawnByte s)] }.setRaw ⟨k.toNat, hk⟩
        (drawnByte s)).countTransfer).advance := by
  have htargets : [Instr.rb k].flatMap rawTargets = [⟨k.toNat, hk⟩] := by
    rw [List.flatMap_singleton, rawTargets, rawIndex_of_lt hk, Option.toList_some]
  rw [State.after, htargets, ← nthDraw_zero, State.consume, ← List.drop_one]
  rfl

/-- The block runs over the fixed ROM, waits for nothing, and every primitive it will issue returns (R144). -/
structure Running (d : Delays) (s : State) : Prop where
  rom : s.rom = romOf d
  wire : s.wire = []
  active : s.active = true
  returned : s.waiting = false
  returns : s.hangIn = none

namespace Running

theorem after (h : Running d s) (is : List Instr) : Running d (s.after is) :=
  ⟨h.rom, h.wire, h.active, h.returned, h.returns⟩

/-- R131 to R139: each micro-operation is one primitive, and `State.after` is what its rule writes. -/
theorem exec_microOp (h : Running d s) (hm : i.isMicroOp = true) (hwf : i.wellFormed = true) (hne : i ≠ .endOp) :
    exec i s = .next (s.after [i]) := by
  cases i with
  | saddr | scnt | srd | swr | start | stop | wb | dly =>
    exact microStep_next_of_none h.active h.returned h.returns
  | rb k =>
    have hk : k.toNat ≤ 5 := of_decide_eq_true hwf
    rw [after_rb k (Nat.lt_succ_of_le hk)]
    exact (execRb_of_le_5 hk s).trans (microStep_next_of_none (s := s.consume) h.active h.returned h.returns)
  | endOp => exact absurd rfl hne
  | init | read | getth | fmt | devAddr | calinit | trigger | resp | status => cases hm

/-- R130: the step of a running block before an END is the micro-operation at UPC. -/
theorem step_beforeEnd (h : Running d s) (hu : BeforeEnd s.upc.toNat) :
    step s = .next (s.after [programAt d s.upc.toNat]) := by
  have hle : s.upc.toNat ≤ 30 := by
    unfold BeforeEnd at hu
    omega
  obtain ⟨hm, hne⟩ := programAt_microOp d hu
  rw [step_programAt h.rom h.wire h.active h.returned hle]
  exact h.exec_microOp hm (programAt_isMicroOp_wellFormed d hle).2 hne

end Running

/-! ### A stretch of the ROM (R100) -/

/-- The micro-operations at the `n` ROM indexes from `u` on. -/
def romStretch (d : Delays) (u n : Nat) : List Instr := (List.range' u n).map (programAt d)

theorem romStretch_succ (d : Delays) (u n : Nat) :
    romStretch d u (n + 1) = programAt d u :: romStretch d (u + 1) n := by
  rw [romStretch, List.range'_succ, List.map_cons, romStretch]

theorem length_romStretch (d : Delays) (u n : Nat) : (romStretch d u n).length = n := by
  rw [romStretch, List.length_map, List.length_range']

/-- R29: micro-operations count UPC up, as long as it does not pass 31. -/
theorem after_upc_toNat (h : s.upc.toNat + is.length ≤ 31) : (s.after is).upc.toNat = s.upc.toNat + is.length :=
  iterate_toNat (fun _ => nextUpc_toNat) is.length s.upc h

theorem after_romStretch_upc (d : Delays) {n : Nat} (h : s.upc.toNat + n ≤ 31) :
    (s.after (romStretch d s.upc.toNat n)).upc.toNat = s.upc.toNat + n := by
  rw [after_upc_toNat, length_romStretch]
  rwa [length_romStretch]

/-- A step more at the end of a run. -/
theorem steps_succ_last (n : Nat) : ∀ s : State, steps (n + 1) s = andThen (steps n s) step := by
  induction n with
  | zero => exact steps_one
  | succ n ih =>
    intro s
    rw [steps, steps]
    cases step s with
    | next t => exact ih t
    | fault | refused => rfl

namespace Running

/-- R29, R130: `n` words, none of them an END, are run in `n` steps. -/
theorem steps_romStretch (h : Running d s) {n : Nat}
    (hn : ∀ v, s.upc.toNat ≤ v → v < s.upc.toNat + n → BeforeEnd v) :
    steps n s = .next (s.after (romStretch d s.upc.toNat n)) := by
  induction n generalizing s with
  | zero => exact congrArg _ (after_nil s).symm
  | succ n ih =>
    have hfirst : BeforeEnd s.upc.toNat := hn _ le_rfl (by omega)
    have hupc : (s.after [programAt d s.upc.toNat]).upc.toNat = s.upc.toNat + 1 := by
      refine after_upc_toNat ?_
      unfold BeforeEnd at hfirst
      exact (by omega : s.upc.toNat + 1 ≤ 31)
    rw [steps, h.step_beforeEnd hfirst, andThen_next,
      ih (h.after _) fun v hlo hhi => hn v (by omega) (by omega), after_cons (programAt_microOp d hfirst).1, hupc,
      romStretch_succ]

/-- R140, R171: one step more at an END. -/
theorem steps_to_end (h : Running d s) {n : Nat} (hn : ∀ v, s.upc.toNat ≤ v → v < s.upc.toNat + n → BeforeEnd v)
    (hle : s.upc.toNat + n ≤ 30) (hend : programAt d (s.upc.toNat + n) = .endOp) :
    steps (n + 1) s = execEnd (s.after (romStretch d s.upc.toNat n)) := by
  have hupc := after_romStretch_upc d (s := s) (n := n) (by omega)
  obtain ⟨hrom, hwire, hactive, hreturned, _⟩ := h.after (romStretch d s.upc.toNat n)
  rw [steps_succ_last, h.steps_romStretch hn, andThen_next,
    step_programAt hrom hwire hactive hreturned (hupc ▸ hle), hupc, hend, exec]

end Running

/-! ### To the END (R171) -/

/-- R140: outside GETTH, END clears ACTIVE and does no more. -/
theorem execEnd_of_ne_getth (ha : s.active = true) (hw : s.waiting = false) (ho : s.op ≠ opGetth) :
    execEnd s = .next s.finish := by
  rw [execEnd_run ha hw, if_neg ho]

/-- What END leaves where it stands: the block idle, UPC and EV as they were. -/
theorem execEnd_ends (ha : s.active = true) (hw : s.waiting = false) :
    ∃ t, execEnd s = .next t ∧ t.active = false ∧ t.upc = s.upc ∧ t.ev = s.ev := by
  refine ⟨_, execEnd_run ha hw, ?_⟩
  split <;> exact ⟨rfl, rfl, rfl⟩

theorem Inv.running (h : Inv d s) (ha : s.active = true) (hw : s.waiting = false) (hh : s.hangIn = none) :
    Running d s := ⟨h.rom, h.wire, ha, hw, hh⟩

/-- The index of the END of the micro-program that OP names (R62). -/
def endIndex (op : BitVec 2) : Nat := if op = opInit then 9 else 30

theorem programAt_endIndex (d : Delays) (op : BitVec 2) : programAt d (endIndex op) = .endOp := by
  unfold endIndex
  split <;> rfl

theorem InProgram.le_endIndex {o : BitVec 2} {u : BitVec 5} (h : InProgram o u) : u.toNat ≤ endIndex o := by
  unfold endIndex
  split
  · next ho => exact h.le_9 ho
  · exact h.le_30

theorem InProgram.beforeEnd {o : BitVec 2} {u : BitVec 5} (h : InProgram o u) {v : Nat} (hlo : u.toNat ≤ v)
    (hhi : v < endIndex o) : BeforeEnd v := by
  unfold endIndex at hhi
  unfold BeforeEnd
  obtain ⟨ho, _⟩ | ⟨ho, h10, _⟩ := h
  · rw [if_pos ho] at hhi
    exact .inl hhi
  · rw [if_neg (ne_opInit ho)] at hhi
    exact .inr ⟨by omega, hhi⟩

/-- Settles O32: the words left before the END are as many steps, and END is one more. -/
theorem everyMicroProgramTerminates : Obligations.EveryMicroProgramTerminates := by
  intro d s h ha hw hh
  have hrun := h.running ha hw hh
  have hprogram := h.program ha
  have hle := hprogram.le_endIndex
  have hend30 : endIndex s.op ≤ 30 := by unfold endIndex; split <;> decide
  have hlast : (if s.op = opInit then 10 else 31) = endIndex s.op + 1 := by unfold endIndex; split <;> rfl
  rw [hlast]
  refine ⟨?ends, fun k hk => ?active⟩
  case ends =>
    have hsteps := hrun.steps_to_end (n := endIndex s.op - s.upc.toNat)
      (fun v hlo hhi => hprogram.beforeEnd hlo (by omega)) (by omega)
      (by rw [Nat.add_sub_cancel' hle]; exact programAt_endIndex d s.op)
    rw [Nat.sub_add_comm hle, hsteps]
    obtain ⟨t, ht, hactive, hupc, _⟩ := execEnd_ends (s := s.after _) ha hw
    have hindex : (if s.op = opInit then 9#5 else 30#5).toNat = endIndex s.op := by unfold endIndex; split <;> rfl
    refine ⟨t, ht, hactive, BitVec.eq_of_toNat_eq ?_⟩
    rw [hindex, hupc, after_romStretch_upc d (by omega), Nat.add_sub_cancel' hle]
  case active =>
    refine ⟨_, hrun.steps_romStretch fun v hlo hhi => hprogram.beforeEnd hlo (by omega), ha, ?_⟩
    exact after_romStretch_upc d (by omega)

end Sys2Proof.Machine
end

section
/-! SUPPORT. The host operations that start a micro-program, from their acceptance to the END, where every primitive
returns; with the statements made of them. -/

namespace Sys2Proof.Machine

open Sys2Proof.Laws

variable {d : Delays} {i : Instr} {s t : State}

/-! ### Acceptance (R160, R165, R190) -/

/-- Settles O14: the two conditions of R256 are INIT's only ones. -/
theorem initIsAccepted : Obligations.InitIsAccepted := fun _ b ha hb => execInit_accepted b ha hb

theorem acceptMeasurement_accepted (op : BitVec 2) (ha : s.active = false) (hb : s.bound = true) :
    acceptMeasurement op s = .next (s.dispatch op readEntry) := by
  simp [acceptMeasurement, ha, hb]

/-- Settles O15: both are accepted alike, and differ in OP alone. -/
theorem readAndGetthAreAccepted : Obligations.ReadAndGetthAreAccepted :=
  fun _ ha hb => ⟨acceptMeasurement_accepted opRead ha hb, acceptMeasurement_accepted opGetth ha hb⟩

/-! ### The two programs as a whole (R161, R166) -/

/-- The state before INIT's END. -/
def State.initialised (d : Delays) (s : State) : State :=
  { s with
    ev := s.ev ++ initEvents d
    tr := { addr := 0x38#7, nbytes := 3#8, mode := .write, isOpen := false, xfer := 3#8 }
    upc := 9#5 }

theorem after_initProgram (d : Delays) (hu : s.upc = initEntry) : s.after (romStretch d 0 9) = s.initialised d := by
  rw [State.after, hu]
  rfl

/-- The state before the END of READ and GETTH. -/
def State.measured (d : Delays) (s : State) : State :=
  { s with
    ev := s.ev ++ readEvents d (sixDraws s)
    raw := sixDraws s
    rawWritten := Vector.replicate 6 true
    env := s.env.drop 6
    draws := s.draws + 6
    tr := { addr := s.tr.addr, nbytes := 6#8, mode := .write, isOpen := false, xfer := 6#8 }
    upc := 30#5 }

theorem sixDraws_eq (s : State) :
    sixDraws s = #v[nthDraw s 0, nthDraw s 1, nthDraw s 2, nthDraw s 3, nthDraw s 4, nthDraw s 5] := rfl

theorem romStretch_read (d : Delays) : romStretch d 10 20 = (readProgram d).dropLast := rfl

theorem eventsReading_readProgram (d : Delays) (s : State) :
    eventsReading (nthDraw s) (readProgram d).dropLast = readEvents d (sixDraws s) := by
  rw [sixDraws_eq]
  rfl

/-- R166: READ leaves the transport closed, in write mode, its last transaction one of six bytes. -/
theorem transport_readProgram (d : Delays) (r : Transport) :
    (readProgram d).dropLast.foldl (fun r i => transportAfter i r) r =
      { addr := r.addr, nbytes := 6#8, mode := .write, isOpen := false, xfer := 6#8 } := by
  simp [readProgram, expand, transportAfter, nextXfer, Config.rawLen]

/-- The elements of RAW, in the order in which READ receives them. -/
def rawElements : List (Fin 6) := [0, 1, 2, 3, 4, 5]

/-- R138: the six RBs fill RAW with the next six draws. -/
theorem after_readProgram (d : Delays) (hu : s.upc = readEntry) : s.after (romStretch d 10 20) = s.measured d := by
  have htargets : (readProgram d).dropLast.flatMap rawTargets = rawElements := rfl
  have hraw : fill rawElements ((List.range rawElements.length).map (nthDraw s)) s.raw = sixDraws s := fill_all ..
  have hwritten : fill rawElements (rawElements.map fun _ => true) s.rawWritten = Vector.replicate 6 true :=
    fill_all ..
  have hupc : nextUpc^[(readProgram d).dropLast.length] readEntry = 30#5 :=
    BitVec.eq_of_toNat_eq (iterate_toNat (fun _ => nextUpc_toNat) 20 readEntry (by decide))
  rw [romStretch_read, State.after, htargets, hraw, hwritten, hu, hupc, eventsReading_readProgram,
    transport_readProgram]
  rfl

namespace Running

theorem steps_initProgram (h : Running d s) (hu : s.upc = initEntry) : steps 10 s = execEnd (s.initialised d) := by
  have hupc : s.upc.toNat = 0 := by rw [hu]; rfl
  rw [h.steps_to_end (n := 9), hupc, after_initProgram d hu]
  · exact fun v _ hhi => .inl (by omega)
  · omega
  · rw [hupc]; rfl

theorem steps_readProgram (h : Running d s) (hu : s.upc = readEntry) : steps 21 s = execEnd (s.measured d) := by
  have hupc : s.upc.toNat = 10 := by rw [hu]; rfl
  rw [h.steps_to_end (n := 20), hupc, after_readProgram d hu]
  · exact fun v hlo hhi => .inr (by omega)
  · omega
  · rw [hupc]; rfl

end Running

/-! ### Whole operations (R160 to R169, R174) -/

namespace Presented

variable {w : Word24} {rest : List Word24}

/-- R107, R256: an accepted operation takes one step. -/
theorem steps_succ (h : Presented d w rest s) (hd : decode (.h24 w) = .ok i)
    (hi : exec i { s with hostq := rest } = .next t) (n : Nat) : steps (n + 1) s = steps n t := by
  rw [steps, step_host h.returned h.wire h.idle h.hostq hd, hi, andThen_next]

/-- R160, R161: INIT from its acceptance to its END. -/
theorem steps_init {b : BitVec 16} (h : Presented d (hostWord 0x01#8 b) rest s) (hb : s.bound = false) :
    steps 11 s = execEnd ((({ s with hostq := rest }.bind b).dispatch opInit initEntry).initialised d) := by
  rw [h.steps_succ (decode_hostWord 0x01#8 b) (execInit_accepted (s := { s with hostq := rest }) b h.idle hb)]
  exact Running.steps_initProgram ⟨h.rom, h.wire, rfl, h.returned, h.returns⟩ rfl

/-- R165, R166, R190: READ and GETTH from their acceptance to their END. -/
theorem steps_measurement {o : BitVec 2} (h : Presented d w rest s) (hb : s.bound = true)
    (hd : decode (.h24 w) = .ok i) (hi : ∀ u, exec i u = acceptMeasurement o u) :
    steps 22 s = execEnd (({ s with hostq := rest }.dispatch o readEntry).measured d) := by
  rw [h.steps_succ hd ((hi _).trans (acceptMeasurement_accepted o (s := { s with hostq := rest }) h.idle hb))]
  exact Running.steps_readProgram ⟨h.rom, h.wire, rfl, h.returned, h.returns⟩ rfl

end Presented

/-- Settles O29: acceptance, the nine words before INIT's END, and an END with no conversion. -/
theorem initRunsToItsEnd : Obligations.InitRunsToItsEnd := by
  intro d s b rest h hb
  rw [h.steps_init hb, execEnd_of_ne_getth]
  · simp only [State.finish, h.idle]
    rfl
  · rfl
  · exact h.returned
  · exact (by decide : opInit ≠ opGetth)

/-- Settles O30: acceptance, the twenty words before READ's END, and an END with no conversion. -/
theorem readRunsToItsEnd : Obligations.ReadRunsToItsEnd := by
  intro d s harg rest h hb
  rw [h.steps_measurement (o := opRead) hb (decode_hostWord 0x02#8 harg) fun _ => rfl, execEnd_of_ne_getth]
  · simp only [State.finish, h.idle]
    rfl
  · rfl
  · exact h.returned
  · exact (by decide : opRead ≠ opGetth)

/-! ### The waits (R174) -/

theorem totalDelay_append (fs : List Event) : ∀ es : List Event, totalDelay (es ++ fs) = totalDelay es + totalDelay fs
  | [] => (Nat.zero_add _).symm
  | e :: es => by
    have ih := totalDelay_append fs es
    cases e <;> simp [totalDelay, ih, Nat.add_assoc]

theorem totalDelay_initEvents (d : Delays) : totalDelay (initEvents d) = d.tInit.toNat := rfl

theorem totalDelay_readEvents (d : Delays) (b : Vector Byte 6) :
    totalDelay (readEvents d b) = d.tMeas.toNat + d.tPost.toNat := rfl

/-- R100: the delays of the programs are words 8, 17 and 29. -/
theorem programAt_dly (d : Delays) {x : BitVec 20} : ∀ n : Nat, n ≤ 30 → programAt d n = .dly x →
    (n = 8 ∧ x = d.tInit) ∨ (n = 17 ∧ x = d.tMeas) ∨ (n = 29 ∧ x = d.tPost)
  | 8, _, h => .inl ⟨rfl, (Instr.dly.inj h).symm⟩
  | 17, _, h => .inr (.inl ⟨rfl, (Instr.dly.inj h).symm⟩)
  | 29, _, h => .inr (.inr ⟨rfl, (Instr.dly.inj h).symm⟩)
  | 0, _, h | 1, _, h | 2, _, h | 3, _, h | 4, _, h | 5, _, h | 6, _, h | 7, _, h | 9, _, h | 10, _, h | 11, _, h
  | 12, _, h | 13, _, h | 14, _, h | 15, _, h | 16, _, h | 18, _, h | 19, _, h | 20, _, h | 21, _, h | 22, _, h
  | 23, _, h | 24, _, h | 25, _, h | 26, _, h | 27, _, h | 28, _, h | 30, _, h => nomatch h
  | n + 31, hn, _ => absurd hn (by omega)

/-- R174: the DLY words of the ROM. -/
theorem decode_romOf_dly_iff (d : Delays) (n : Fin 32) (x : BitVec 20) :
    decode (.u24 (romOf d)[n]) = .ok (.dly x) ↔
      (n.val = 8 ∧ x = d.tInit) ∨ (n.val = 17 ∧ x = d.tMeas) ∨ (n.val = 29 ∧ x = d.tPost) := by
  constructor
  · intro h
    by_cases hn : n.val ≤ 30
    · exact programAt_dly d n hn (Except.ok.inj ((decode_romOf d n hn).symm.trans h))
    · obtain rfl : n = 31 := by omega
      obtain ⟨_, _, hreserved⟩ := romIsTheAssembledMicroPrograms d
      exact absurd h (hreserved _)
  · rintro (⟨hn, rfl⟩ | ⟨hn, rfl⟩ | ⟨hn, rfl⟩)
    · obtain rfl : n = 8 := Fin.ext hn
      exact decode_dlyWord d.tInit
    · obtain rfl : n = 17 := Fin.ext hn
      exact decode_dlyWord d.tMeas
    · obtain rfl : n = 29 := Fin.ext hn
      exact decode_dlyWord d.tPost

/-- The delays of a run of READ or GETTH. -/
theorem Presented.delays_measurement {w : Word24} {rest : List Word24} {o : BitVec 2} (h : Presented d w rest s)
    (hb : s.bound = true) (hd : decode (.h24 w) = .ok i) (hi : ∀ u, exec i u = acceptMeasurement o u) :
    ∃ t : State, steps 22 s = .next t ∧ t.active = false ∧
      totalDelay t.ev = totalDelay s.ev + d.tMeas.toNat + d.tPost.toNat := by
  obtain ⟨t, ht, hidle, _, hev⟩ :=
    execEnd_ends (s := ({ s with hostq := rest }.dispatch o readEntry).measured d) rfl h.returned
  refine ⟨t, (h.steps_measurement hb hd hi).trans ht, hidle, ?_⟩
  rw [hev, State.measured, totalDelay_append, totalDelay_readEvents, Nat.add_assoc]
  rfl

/-- Settles O33: a run appends the events of its program, whose delays are the parameters. -/
theorem delaysOfTheMicroPrograms : Obligations.DelaysOfTheMicroPrograms := by
  refine ⟨fun d s b rest h hb => ?init, fun d s w harg rest hw h hb => ?measurement, decode_romOf_dly_iff⟩
  case init =>
    refine ⟨_, initRunsToItsEnd d s b rest h hb, h.idle, ?_⟩
    rw [totalDelay_append, totalDelay_initEvents]
  case measurement =>
    obtain rfl | rfl := hw
    · exact h.delays_measurement (o := opRead) hb (decode_hostWord 0x02#8 harg) fun _ => rfl
    · exact h.delays_measurement (o := opGetth) hb (decode_hostWord 0x03#8 harg) fun _ => rfl

end Sys2Proof.Machine
end

section
/-! SUPPORT. GETTH from its acceptance to the results its END writes (R190, R191, R203). -/

namespace Sys2Proof.Machine

open Sys2Proof.Laws

variable {s : State}

/-- R140, R191: GETTH's END performs the conversion and clears ACTIVE. -/
theorem execEnd_of_getth (ha : s.active = true) (hw : s.waiting = false) (ho : s.op = opGetth) :
    execEnd s = .next (convert s).finish := by
  rw [execEnd_run ha hw, if_pos ho]

/-- Settles O31: acceptance, the twenty words READ runs too, and an END that converts the six bytes they have drawn. -/
theorem getthRunsToItsEnd : Obligations.GetthRunsToItsEnd := by
  intro d s harg rest h hb
  rw [h.steps_measurement (o := opGetth) hb (decode_hostWord 0x03#8 harg) fun _ => rfl, execEnd_of_getth]
  · simp only [State.finish, h.idle]
    rfl
  · rfl
  · exact h.returned
  · rfl

end Sys2Proof.Machine
end

section
/-! SUPPORT. The converter's values as numbers: the packed value and its two fields, the stored temperature and
humidity; with the statements made of them. -/

namespace Sys2Proof.Machine

open Sys2Proof.Laws

/-! ### The unpacker (R64, R192 to R194) -/

/-- A byte of the packed value above what comes after it. -/
theorem byte_above_toNat (b : Byte) {x : BitVec 40} (k : Nat) (hk : k ≤ 32) (hx : x.toNat < 2 ^ k) :
    (b.setWidth 40 <<< k ||| x).toNat = b.toNat * 2 ^ k + x.toNat := by
  have hb : (b.setWidth 40).toNat = b.toNat := by
    rw [BitVec.toNat_setWidth]
    omega
  have hfits : b.toNat * 2 ^ k < 2 ^ 8 * 2 ^ 32 :=
    Nat.mul_lt_mul_of_lt_of_le b.isLt (Nat.pow_le_pow_right (by decide) hk) (by decide)
  rw [shift_or_toNat _ _ k (by rwa [hb]) hx, hb]

/-- R64: the packed value as a number. -/
theorem packed_toNat (raw : Vector Byte 6) :
    (packed raw).toNat = raw[1].toNat * 2 ^ 32 +
      (raw[2].toNat * 2 ^ 24 + (raw[3].toNat * 2 ^ 16 + (raw[4].toNat * 256 + raw[5].toNat))) := by
  have hfrom4 := shift_or_bytes_toNat (n := 40) (by decide) raw[4] raw[5]
  have hfrom3 := byte_above_toNat raw[3] 16 (by decide) (by rw [hfrom4]; omega)
  have hfrom2 := byte_above_toNat raw[2] 24 (by decide) (by rw [hfrom3, hfrom4]; omega)
  have hfrom1 := byte_above_toNat raw[1] 32 (by decide) (by rw [hfrom2, hfrom3, hfrom4]; omega)
  rw [packed, BitVec.or_assoc, BitVec.or_assoc, BitVec.or_assoc, hfrom1, hfrom2, hfrom3, hfrom4]

/-- R194: HRAW above TRAW, as a number. -/
theorem fields_toNat (h t : BitVec 20) :
    ((h.setWidth 40 <<< 20) ||| t.setWidth 40).toNat = h.toNat * 2 ^ 20 + t.toNat := by
  rw [shift_or_toNat] <;> simp only [BitVec.toNat_setWidth] <;> omega

/-- R194: the two fields side by side are the packed value; the byte they share is cut between its digits. -/
theorem fields_eq_packed (raw : Vector Byte 6) :
    ((hrawOf raw).setWidth 40 <<< 20) ||| (trawOf raw).setWidth 40 = packed raw := by
  apply BitVec.eq_of_toNat_eq
  rw [fields_toNat, packed_toNat, hrawOf, trawOf, unpackH_toNat, unpackT_toNat]
  omega

/-- Settles O42: the packed value is the two fields side by side, so its halves are the fields. -/
theorem unpackerSplitsThePackedValue : Obligations.UnpackerSplitsThePackedValue := by
  intro raw
  have hpacked := congrArg BitVec.toNat (fields_eq_packed raw)
  rw [fields_toNat] at hpacked
  refine ⟨BitVec.eq_of_toNat_eq ?high, BitVec.eq_of_toNat_eq ?low, fields_eq_packed raw⟩
  case high =>
    rw [extractLsb'_toNat_eq_div, ← hpacked]
    omega
  case low =>
    rw [extractLsb'_toNat_eq_div, ← hpacked]
    omega

/-- Settles O43. -/
theorem unpackerFieldsAsNumbers : Obligations.UnpackerFieldsAsNumbers :=
  fun r1 r2 r3 r4 r5 => ⟨unpackH_toNat r1 r2 r3, unpackT_toNat r3 r4 r5⟩

/-! ### The scaler (R15, R195 to R200) -/

/-- R15: a result in the range of an int16 is stored without loss. -/
theorem int16Pattern_toInt {v : Int} (hlo : -32768 ≤ v) (hhi : v < 32768) : (int16Pattern v).toInt = v :=
  BitVec.toInt_ofInt_eq_self (by decide) hlo hhi

theorem tempQuotient_eq (t : BitVec 20) : tempQuotient t = t.toNat * 625 / 32768 := rfl

theorem humidity_eq (h : BitVec 20) : humidity h = h.toNat / 10486 := rfl

/-- R195, R198: the largest quotient is that of the largest TRAW. -/
theorem tempQuotient_le (t : BitVec 20) : tempQuotient t ≤ 19999 := by
  rw [tempQuotient_eq]
  omega

/-- R198: the largest HUMID100 is 99. -/
theorem humidity_le (h : BitVec 20) : humidity h ≤ 99 := by
  rw [humidity_eq]
  omega

/-- R195: TEMP100 is stored without loss. -/
theorem scaleT_toInt (t : BitVec 20) : (scaleT t).toInt = (tempQuotient t : Int) - 5000 := by
  have hle := tempQuotient_le t
  have htemp : temperature t = (tempQuotient t : Int) - 5000 := rfl
  rw [scaleT, int16Pattern_toInt, htemp] <;> omega

/-- R196: HUMID100 is stored without loss. -/
theorem scaleH_toInt (h : BitVec 20) : (scaleH h).toInt = humidity h := by
  have hle := humidity_le h
  rw [scaleH, int16Pattern_toInt] <;> omega

/-- Settles O44. -/
theorem temperatureFormula : Obligations.TemperatureFormula := by
  intro t
  have hle := tempQuotient_le t
  have hproduct : tempProduct t = t.toNat * 625 := rfl
  refine ⟨scaleT_toInt t, ?low, ?high, ?product⟩
  case low => rw [scaleT_toInt]; omega
  case high => rw [scaleT_toInt]; omega
  case product => rw [hproduct]; omega

/-- Settles O45: 625 / 32768 is 20000 / 2^20 with the common factor 32 taken out. -/
theorem temperatureFormulaIsExact : Obligations.TemperatureFormulaIsExact := by
  refine fun t => ⟨?_, scaleT_toInt t⟩
  calc tempQuotient t = t.toNat * 625 / 32768 := tempQuotient_eq t
    _ = t.toNat * 625 * 32 / (32768 * 32) := (Nat.mul_div_mul_right _ _ (by decide)).symm
    _ = t.toNat * 20000 / 2 ^ 20 := congrArg (· / 2 ^ 20) (Nat.mul_assoc ..)

/-- Settles O46: 10486 is 2^20 / 100 rounded up, so each whole percent begins a little late. -/
theorem humidityFormulaAndItsBound : Obligations.HumidityFormulaAndItsBound := by
  intro h
  have hle := humidity_le h
  have hlow : humidity h * 10486 ≤ h.toNat := by rw [humidity_eq]; omega
  have hhigh : h.toNat < (humidity h + 1) * 10486 := by rw [humidity_eq]; omega
  refine ⟨scaleH_toInt h, hle, ?above, ?bound, ?floorAbove, ?floorBelow, fun hh => ?exact, fun hh => ?late⟩
  case above =>
    calc humidity h * 2 ^ 20 ≤ humidity h * (10486 * 100) := Nat.mul_le_mul_left _ (by decide)
      _ = humidity h * 10486 * 100 := (Nat.mul_assoc ..).symm
      _ ≤ h.toNat * 100 := Nat.mul_le_mul_right _ hlow
  case bound => omega
  case floorAbove => omega
  case floorBelow => omega
  case exact => omega
  case late => omega

/-! ### The status byte (R201, R202) -/

/-- R192, R193, R202: the two fields are those of RAW[1] to RAW[5]. -/
theorem fields_congr {raw raw' : Vector Byte 6} (h : ∀ i : Fin 6, i.val ≠ 0 → raw[i] = raw'[i]) :
    hrawOf raw = hrawOf raw' ∧ trawOf raw = trawOf raw' := by
  have h1 : raw[1] = raw'[1] := h 1 (by decide)
  have h2 : raw[2] = raw'[2] := h 2 (by decide)
  have h3 : raw[3] = raw'[3] := h 3 (by decide)
  have h4 : raw[4] = raw'[4] := h 4 (by decide)
  have h5 : raw[5] = raw'[5] := h 5 (by decide)
  exact ⟨by rw [hrawOf, hrawOf, h1, h2, h3], by rw [trawOf, trawOf, h3, h4, h5]⟩

/-- Settles O47: the readings are functions of the two fields. -/
theorem statusByteNeverReachesTheReadings : Obligations.StatusByteNeverReachesTheReadings := by
  intro s s' h
  obtain ⟨hh, ht⟩ := fields_congr h
  exact ⟨hh, ht, congrArg scaleT ht, congrArg scaleH hh, rfl⟩

end Sys2Proof.Machine
end

section
/-! SUPPORT. The formatter: its working values as quotients of the magnitude, the text's digits, the text read back and
as it stands in STR; with the statements made of them. -/

namespace Sys2Proof.Machine

variable {s t : State} {v : BitVec 16}

/-! ### The working values (R221 to R223, R229) -/

/-- R222: the absolute value is the mathematical one. -/
theorem magnitude_eq_natAbs (v : BitVec 16) : magnitude v = v.toInt.natAbs := by
  rw [magnitude, value100_eq_toInt]

/-- R222, R229: the largest magnitude is that of -32768. -/
theorem magnitude_le (v : BitVec 16) : magnitude v ≤ 32768 := by
  have hlo : -32768 ≤ v.toInt := BitVec.le_toInt v
  have hhi : v.toInt < 32768 := BitVec.toInt_lt
  rw [magnitude_eq_natAbs]
  omega

/-- R10, R223: the threshold is 5. -/
theorem roundsUp_iff (r : Nat) : roundsUp r = true ↔ 5 ≤ r := decide_eq_true_iff

theorem carries_iff (d : Nat) : carries d = true ↔ d = 10 := decide_eq_true_iff

/-- R223: adding 5 to X carries into its digits exactly as step 2 does into D and W. -/
theorem roundTenths_decompose (x : Nat) :
    roundTenths (decompose x).1 (decompose x).2.1 (decompose x).2.2 = ((x + 5) / 100, (x + 5) / 10 % 10) := by
  simp only [decompose, roundTenths, roundsUp_iff, carries_iff]
  split_ifs
  all_goals exact Prod.ext (by dsimp only; omega) (by dsimp only; omega)

theorem tenths_eq (v : BitVec 16) : tenths v = ((magnitude v + 5) / 100, (magnitude v + 5) / 10 % 10) :=
  roundTenths_decompose (magnitude v)

/-- R223, R227: W and D are the digits of X rounded half up to tenths. -/
theorem tenths_value (v : BitVec 16) : 10 * (tenths v).1 + (tenths v).2 = (magnitude v + 5) / 10 := by
  rw [tenths_eq]
  dsimp only
  omega

theorem tenths_whole_le (v : BitVec 16) : (tenths v).1 ≤ 327 := by
  have hle := magnitude_le v
  rw [tenths_eq]
  dsimp only
  omega

theorem tenths_digit_le (v : BitVec 16) : (tenths v).2 ≤ 9 := by
  rw [tenths_eq]
  dsimp only
  omega

/-- Settles O52: quotients and remainders of X for step 1, of X + 5 for step 2. -/
theorem formatterWorkingValues : Obligations.FormatterWorkingValues := by
  intro v
  have hle := magnitude_le v
  have hdecompose : decompose (magnitude v) = (magnitude v / 100, magnitude v % 100 / 10, magnitude v % 100 % 10) := rfl
  refine ⟨hle, ?identity, ?whole, ?digit, ?rest, tenths_value v, tenths_whole_le v, tenths_digit_le v⟩
  all_goals rw [hdecompose]; dsimp only; omega

/-! ### Digits and their codes (R106, R225) -/

theorem digitCode_toNat {d : Nat} (h : d ≤ 9) : (digitCode d).toNat = 0x30 + d := by
  rw [digitCode, BitVec.toNat_add, BitVec.toNat_ofNat, BitVec.toNat_ofNat]
  omega

theorem isDigit_digitCode {d : Nat} (h : d ≤ 9) : isDigit (digitCode d) = true := by
  simp only [isDigit, digitCode_toNat h, Bool.and_eq_true, decide_eq_true_eq]
  omega

theorem isDigit_ne_point {c : Byte} (h : isDigit c = true) : c ≠ pointCode :=
  fun e => absurd (e ▸ h) (by decide)

theorem isDigit_ne_minus {c : Byte} (h : isDigit c = true) : c ≠ minusCode :=
  fun e => absurd (e ▸ h) (by decide)

/-- R229: three digits suffice below 1000. -/
theorem wholeDigits_le {w : Nat} (hw : w < 1000) : ∀ d ∈ wholeDigits w, d ≤ 9 := by
  unfold wholeDigits
  split_ifs
  all_goals
    simp only [List.forall_mem_cons, List.not_mem_nil, false_imp_iff, implies_true, and_true]
    omega

/-- R225: the digits spell W, the most significant first. -/
theorem ofDigits_wholeDigits (w : Nat) : Nat.ofDigits 10 (wholeDigits w).reverse = w := by
  unfold wholeDigits
  split_ifs
  all_goals
    simp only [List.reverse_cons, List.reverse_nil, List.nil_append, List.cons_append, Nat.ofDigits_cons,
      Nat.ofDigits_nil]
    omega

theorem wholeDigits_tenths_le (v : BitVec 16) : ∀ d ∈ wholeDigits (tenths v).1, d ≤ 9 :=
  wholeDigits_le (Nat.lt_of_le_of_lt (tenths_whole_le v) (by decide))

/-- R225: no leading zero stands before another digit. -/
theorem wholeDigits_head_pos {w : Nat} (h : 1 < (wholeDigits w).length) : ∀ d ∈ (wholeDigits w).head?, 0 < d := by
  unfold wholeDigits at h ⊢
  split_ifs at h ⊢
  · exact absurd h (by simp)
  all_goals
    simp only [List.head?_cons, Option.mem_some_iff, forall_eq']
    omega

/-! ### The text (R224, R225) -/

theorem signText_eq (v : BitVec 16) : signText v = if v.toInt < 0 then [minusCode] else [] := by
  simp only [signText, negFlag, value100_eq_toInt, decide_eq_true_eq]

theorem signText_length_eq (v : BitVec 16) : (signText v).length = if value100 v < 0 then 1 else 0 := by
  rw [signText_eq, value100_eq_toInt]
  split <;> rfl

/-- R225: the codes of the digits of W. -/
def wholeText (v : BitVec 16) : List Byte := (wholeDigits (tenths v).1).map digitCode

/-- R225, R226: the text behind its sign. -/
def unsignedText (v : BitVec 16) : List Byte := wholeText v ++ [pointCode, digitCode (tenths v).2]

theorem centiText_eq (v : BitVec 16) : centiText v = signText v ++ unsignedText v := List.append_assoc ..

theorem wholeText_length (v : BitVec 16) : (wholeText v).length = (wholeDigits (tenths v).1).length :=
  List.length_map ..

theorem wholeText_isDigit (v : BitVec 16) : ∀ c ∈ wholeText v, isDigit c = true :=
  List.forall_mem_map.mpr fun d hd => isDigit_digitCode (wholeDigits_tenths_le v d hd)

theorem wholeText_head_ne_zero (h : 1 < (wholeText v).length) : (wholeText v).head? ≠ some 0x30#8 := by
  rw [wholeText_length] at h
  intro hzero
  rw [wholeText, List.head?_map, Option.map_eq_some_iff] at hzero
  obtain ⟨d, hhead, hcode⟩ := hzero
  have hpos := wholeDigits_head_pos h d hhead
  have hnat := digitCode_toNat (wholeDigits_tenths_le v d (List.mem_of_head? hhead))
  rw [hcode, BitVec.toNat_ofNat] at hnat
  omega

theorem centiText_length_eq (v : BitVec 16) :
    (centiText v).length = (signText v).length + (wholeDigits (tenths v).1).length + 2 := by
  rw [centiText_eq, unsignedText, List.length_append, List.length_append, wholeText_length, Nat.add_assoc]
  rfl

theorem centiText_length_lt (v : BitVec 16) : (centiText v).length < 7 := Nat.lt_succ_of_le (centiText_length v).2

/-! ### The text read back (R227) -/

theorem digitsValue_append_point (cs : List Byte) : digitsValue (cs ++ [pointCode]) = digitsValue cs := by
  rw [digitsValue, List.foldl_append]
  rfl

theorem digitsValue_append_digit (cs : List Byte) {d : Nat} (h : d ≤ 9) :
    digitsValue (cs ++ [digitCode d]) = 10 * digitsValue cs + d := by
  rw [digitsValue, List.foldl_append, List.foldl_cons, List.foldl_nil, if_neg (isDigit_ne_point (isDigit_digitCode h)),
    digitCode_toNat h, Nat.add_sub_cancel_left]
  rfl

/-- The codes of a list of digits read back as the number the digits spell. -/
theorem digitsValue_map_digitCode (ds : List Nat) (h : ∀ d ∈ ds, d ≤ 9) :
    digitsValue (ds.map digitCode) = Nat.ofDigits 10 ds.reverse := by
  induction ds using List.reverseRecOn with
  | nil => rfl
  | append_singleton ds d ih =>
    rw [List.map_append, List.map_singleton, digitsValue_append_digit _ (h d (by simp)),
      ih fun e he => h e (List.mem_append_left _ he), List.reverse_append, List.reverse_singleton,
      List.singleton_append, Nat.ofDigits_cons, Nat.add_comm]

theorem digitsValue_wholeText (v : BitVec 16) : digitsValue (wholeText v) = (tenths v).1 := by
  rw [wholeText, digitsValue_map_digitCode _ (wholeDigits_tenths_le v), ofDigits_wholeDigits]

theorem readTenths_minus (cs : List Byte) : readTenths (minusCode :: cs) = (true, digitsValue cs) := by
  rw [readTenths, if_pos rfl]

theorem readTenths_unsigned {cs : List Byte} (h : minusCode ∉ cs) : readTenths cs = (false, digitsValue cs) := by
  cases cs with
  | nil => rfl
  | cons c rest => rw [readTenths, if_neg (List.ne_of_not_mem_cons h).symm]

theorem minusCode_not_mem_unsignedText (v : BitVec 16) : minusCode ∉ unsignedText v := by
  have hdigit : minusCode ≠ digitCode (tenths v).2 := (isDigit_ne_minus (isDigit_digitCode (tenths_digit_le v))).symm
  have hwhole : minusCode ∉ wholeText v := fun h => isDigit_ne_minus (wholeText_isDigit v _ h) rfl
  have hpoint : minusCode ≠ pointCode := by decide
  simp [unsignedText, hdigit, hwhole, hpoint]

/-- R227: what stands behind the sign reads back as the rounded magnitude. -/
theorem digitsValue_unsignedText (v : BitVec 16) : digitsValue (unsignedText v) = (magnitude v + 5) / 10 := by
  rw [unsignedText, List.append_cons, digitsValue_append_digit _ (tenths_digit_le v), digitsValue_append_point,
    digitsValue_wholeText, tenths_value]

theorem readTenths_centiText (v : BitVec 16) :
    readTenths (centiText v) = (decide (v.toInt < 0), (magnitude v + 5) / 10) := by
  rw [centiText_eq, signText_eq]
  split
  · next hneg => rw [List.singleton_append, readTenths_minus, digitsValue_unsignedText, decide_eq_true hneg]
  · next hpos =>
    rw [List.nil_append, readTenths_unsigned (minusCode_not_mem_unsignedText v), digitsValue_unsignedText,
      decide_eq_false hpos]

/-! ### The text in STR (R226) -/

theorem exec_fmt_idle (v : BitVec 16) (ha : s.active = false) :
    exec (.fmt v) s = .next (s.writeString (centiText v)) := by
  simp [exec, execFmt, ha]

/-- R226: up to the terminator STR holds the text and the terminator. -/
theorem writeString_getElem? {cs : List Byte} (s : State) (hcs : cs.length < 7) {j : Nat} (hj : j ≤ cs.length) :
    (s.writeString cs).str[j]? = (cs ++ [0x00#8])[j]? := by
  have hlt : j < (cs ++ [0x00#8]).length := List.length_append ▸ Nat.lt_succ_of_le hj
  have hj7 : j < 7 := Nat.lt_of_le_of_lt hj hcs
  rw [State.writeString_str, Vector.getElem?_ofFn, dif_pos hj7, List.getElem?_eq_getElem hlt, Option.getD_some]

theorem stringText_writeString {cs : List Byte} (s : State) (hcs : cs.length < 7) :
    stringText (s.writeString cs) = cs := by
  rw [stringText, writeString_strlen_toNat s (Nat.lt_succ_of_lt hcs)]
  refine List.ext_getElem? fun j => ?_
  rw [List.getElem?_take]
  split
  · next hj =>
    rw [Vector.getElem?_toList, writeString_getElem? s hcs (Nat.le_of_lt hj), List.getElem?_append_left hj]
  · next hj => exact (List.getElem?_eq_none (Nat.le_of_not_lt hj)).symm

/-- R226: an accepted FMT leaves its operand's text in STR. -/
theorem stringText_of_fmt (h : exec (.fmt v) s = .next t) : stringText t = centiText v := by
  obtain ⟨-, rfl⟩ := execFmt_eq_next h
  exact stringText_writeString s (centiText_length_lt v)

theorem exists_fmt_text {cs : List Byte} (ha : s.active = false) (hcs : centiText v = cs) :
    ∃ t, exec (.fmt v) s = .next t ∧ stringText t = cs :=
  ⟨_, exec_fmt_idle v ha, (stringText_of_fmt (exec_fmt_idle v ha)).trans hcs⟩

/-- Settles O50: STR holds the text, and the text reads back. -/
theorem formattedStringReadsBackRounded : Obligations.FormattedStringReadsBackRounded := by
  intro s t v h
  rw [stringText_of_fmt h, readTenths_centiText, magnitude_eq_natAbs]

/-- Settles O51: the digits before the point are those of W. -/
theorem formattedStringShape : Obligations.FormattedStringShape := by
  intro s t v h
  have hlength := wholeDigits_length (tenths v).1
  rw [← wholeText_length] at hlength
  refine ⟨wholeText v, digitCode (tenths v).2, ?text, hlength.1, hlength.2, wholeText_isDigit v,
    isDigit_digitCode (tenths_digit_le v), wholeText_head_ne_zero⟩
  rw [stringText_of_fmt h, centiText_eq, signText_eq, List.append_assoc]
  rfl

/-! ### Fixed operands (R222, R228, R231) -/

/-- Settles O53: an idle block accepts FMT, and each text is its operand's. -/
theorem fmtSourceExamples : Obligations.FmtSourceExamples := by
  intro s ha
  refine ⟨⟨?negative, exists_fmt_text ha ?negativeText⟩, ⟨?carry, exists_fmt_text ha ?carryText⟩,
    exists_fmt_text ha ?zeroText, ⟨?down, exists_fmt_text ha ?downText⟩, ?up, exists_fmt_text ha ?upText⟩
  all_goals decide

/-- Settles O54: the sign is that of the operand, and a magnitude below 5 rounds to no tenths. -/
theorem negativeZeroKeepsItsSign : Obligations.NegativeZeroKeepsItsSign := by
  intro s t v hlo hhi h
  have hneg : v.toInt < 0 := by omega
  have hmagnitude : magnitude v ≤ 4 := by rw [magnitude_eq_natAbs]; omega
  have htenths : tenths v = (0, 0) := by
    rw [tenths_eq]
    exact Prod.ext (by dsimp only; omega) (by dsimp only; omega)
  rw [stringText_of_fmt h, centiText, signText_eq, if_pos hneg, htenths]
  rfl

/-- Settles O55: rounding joins -32768 and -32767. -/
theorem mostNegativeInputIsFormatted : Obligations.MostNegativeInputIsFormatted := by
  refine ⟨fun v => ⟨magnitude_eq_natAbs v, Nat.lt_of_le_of_lt (magnitude_le v) (by decide)⟩, by decide, ?_⟩
  intro s t v hv h
  rw [stringText_of_fmt h]
  obtain rfl | rfl := hv
  · decide
  · decide

/-! ### The layout (R226) -/

theorem centiText_head_of_signed (h : (signText v).length = 1) : (centiText v)[0]? = some minusCode := by
  rw [signText_eq] at h
  split at h
  · next hneg => rw [centiText_eq, signText_eq, if_pos hneg]; rfl
  · cases h

theorem writeString_centiText_getElem? (s : State) {j : Nat} (hj : j < (centiText v).length) :
    (s.writeString (centiText v)).str[j]? = (centiText v)[j]? := by
  rw [writeString_getElem? s (centiText_length_lt v) (Nat.le_of_lt hj), List.getElem?_append_left hj]

/-- Behind the sign STR holds the digits, the point and the digit D. -/
theorem writeString_behind_sign (s : State) {j : Nat} (hj : j < (wholeDigits (tenths v).1).length + 2) :
    (s.writeString (centiText v)).str[(signText v).length + j]? = (unsignedText v)[j]? := by
  have hlen := centiText_length_eq v
  rw [writeString_centiText_getElem? s (by omega), centiText_eq, List.getElem?_append_right (Nat.le_add_right ..),
    Nat.add_sub_cancel_left]

theorem unsignedText_getElem?_digit {j : Nat} (hj : j < (wholeDigits (tenths v).1).length) :
    (unsignedText v)[j]? = (wholeDigits (tenths v).1)[j]?.map digitCode := by
  rw [unsignedText, List.getElem?_append_left (by rwa [wholeText_length]), wholeText, List.getElem?_map]

theorem unsignedText_getElem?_behind_digits (v : BitVec 16) (j : Nat) :
    (unsignedText v)[(wholeDigits (tenths v).1).length + j]? = [pointCode, digitCode (tenths v).2][j]? := by
  rw [unsignedText, ← wholeText_length, List.getElem?_append_right (Nat.le_add_right ..), Nat.add_sub_cancel_left]

/-- Settles O49: each place of the layout is a place of the text, and STR holds the text. -/
theorem fmtWritesTheStringLayout : Obligations.FmtWritesTheStringLayout := by
  intro s v ha
  have hlen := centiText_length_eq v
  have hlt := centiText_length_lt v
  obtain ⟨hone, hthree⟩ := wholeDigits_length (tenths v).1
  refine ⟨_, exec_fmt_idle v ha, rfl, (signText v).length, _, signText_length_eq v, rfl, hone, hthree,
    ?strlen, fun hsigned => ?sign, fun j hj => ?digit, ?point, ?tenth, ?terminator⟩
  case strlen => rw [writeString_strlen_toNat s (Nat.lt_succ_of_lt hlt), hlen]
  case sign =>
    have hfirst := (writeString_centiText_getElem? s (by omega)).trans (centiText_head_of_signed hsigned)
    exact Vector.getElem_eq_iff.mpr hfirst
  case digit => exact (writeString_behind_sign s (by omega)).trans (unsignedText_getElem?_digit hj)
  case point => exact (writeString_behind_sign s (by omega)).trans (unsignedText_getElem?_behind_digits v 0)
  case tenth =>
    rw [Nat.add_assoc]
    exact (writeString_behind_sign s (by omega)).trans (unsignedText_getElem?_behind_digits v 1)
  case terminator =>
    rw [← hlen]
    exact writeString_terminator s hlt

end Sys2Proof.Machine
end

section
/-! SUPPORT. The acceptance table of the host operations (60_exceptions.md R256). -/

namespace Sys2Proof.Machine

open Sys2Proof.Laws

variable {i : Instr} {s : State}

/-- R256, one row of the table: a host operation whose "accepted when" column is `p` answers a next state exactly there,
and, as it never faults, a refusal elsewhere. -/
theorem exec_hostOp_accepted_iff {p : Prop} (hi : i.isHostOp = true) (haccept : p → ∃ t, exec i s = .next t)
    (honly : ∀ t, exec i s = .next t → p) :
    ((∃ t, exec i s = .next t) ↔ p) ∧ (¬p → ∃ r, exec i s = .refused r) := by
  refine ⟨⟨fun ⟨t, ht⟩ => honly t ht, haccept⟩, fun hp => ?_⟩
  cases h : exec i s with
  | next t => exact absurd (honly t h) hp
  | fault f => exact absurd h (exec_hostOp_ne_fault hi f)
  | refused r => exact ⟨r, rfl⟩

theorem exec_init_accepted_iff (b : BitVec 16) (s : State) :
    ((∃ t, exec (.init b) s = .next t) ↔ s.active = false ∧ s.bound = false) ∧
    (¬(s.active = false ∧ s.bound = false) → ∃ r, exec (.init b) s = .refused r) := by
  refine exec_hostOp_accepted_iff rfl (fun ⟨ha, hb⟩ => ⟨_, execInit_accepted b ha hb⟩) fun t ht => ?_
  obtain ⟨ha, hb, -⟩ := execInit_eq_next ht
  exact ⟨ha, hb⟩

/-- READ and GETTH have one row: both answer what `acceptMeasurement` answers. -/
theorem exec_measurement_accepted_iff {o : BitVec 2} (hi : i.isHostOp = true) (hm : exec i s = acceptMeasurement o s) :
    ((∃ t, exec i s = .next t) ↔ s.active = false ∧ s.bound = true) ∧
    (¬(s.active = false ∧ s.bound = true) → ∃ r, exec i s = .refused r) := by
  refine exec_hostOp_accepted_iff hi (fun ⟨ha, hb⟩ => ⟨_, hm.trans (acceptMeasurement_accepted o ha hb)⟩) fun t ht => ?_
  obtain ⟨ha, hb, -⟩ := acceptMeasurement_eq_next (hm.symm.trans ht)
  exact ⟨ha, hb⟩

theorem exec_fmt_accepted_iff (v : BitVec 16) (s : State) :
    ((∃ t, exec (.fmt v) s = .next t) ↔ s.active = false) ∧
    (¬s.active = false → ∃ r, exec (.fmt v) s = .refused r) :=
  exec_hostOp_accepted_iff rfl (fun ha => ⟨_, exec_fmt_idle v ha⟩) fun _ ht => (execFmt_eq_next ht).1

/-- R96: no host word with a reserved `hop` decodes. -/
theorem decode_reserved_hop_ne_ok {w : Word24} (h : (hopField w).toNat = 0 ∨ 5 ≤ (hopField w).toNat) (i : Instr) :
    decode (.h24 w) ≠ .ok i := by
  have hreserved : decode (.h24 w) = .error .reservedHostOpcode :=
    decodeHop_reserved (h.imp_left fun h0 => BitVec.eq_of_toNat_eq h0) (hargField w)
  rw [hreserved]
  exact nofun

/-- Settles O16, a row of the table at a time; FMT's row, where BOUND plays no part, refuses it just when ACTIVE = 1. -/
theorem hostOperationsAreAcceptedByTheTable : Obligations.HostOperationsAreAcceptedByTheTable := by
  refine ⟨fun s b => exec_init_accepted_iff b s, fun s => exec_measurement_accepted_iff (o := opRead) rfl rfl,
    fun s => exec_measurement_accepted_iff (o := opGetth) rfl rfl, fun s v => ?fmt,
    fun _ h i => decode_reserved_hop_ne_ok h i⟩
  case fmt =>
    obtain ⟨haccepted, hrefused⟩ := exec_fmt_accepted_iff v s
    exact ⟨haccepted, fun ha => hrefused (ne_false_of_eq_true ha)⟩

end Sys2Proof.Machine
end

section
/-! SUPPORT. The block with nothing to do, and the block after a power cycle (70_reset_and_hazards.md R280 to R283). -/

namespace Sys2Proof.Machine

variable {d : Delays} {s : State} {tr : Transport} {hang : Option Nat} {env : List Byte}

/-! ### Nothing presented (R280, log 3) -/

theorem step_of_fetch_none (hn : s.waiting = false) (hf : fetch s = none) : step s = .next s := by
  simp [step, hn, hf]

/-- Settles O12: an idle block finds no frame and no word of the host to fetch. -/
theorem idleBlockStaysAsItIs : Obligations.IdleBlockStaysAsItIs :=
  fun _ hn hw ha hq => step_of_fetch_none hn (fetch_idle hw ha hq)

/-! ### After a power cycle (R47, R281, R283) -/

/-- R256: READ and GETTH of an idle block that no INIT has bound. -/
theorem acceptMeasurement_notBound (op : BitVec 2) (ha : s.active = false) (hb : s.bound = false) :
    acceptMeasurement op s = .refused .notBound := by
  simp [acceptMeasurement, ha, hb]

/-- R47: whether a register holds a value is no part of what U8 leaves at any value. -/
theorem holdsValue_powerCycle (r : ResultReg) : holdsValue r (powerCycle tr hang env s) = false := by
  have hreset : holdsValue r (powerCycle tr hang env s) = holdsValue r State.reset := by cases r <;> rfl
  exact hreset.trans (holdsValue_reset r)

/-- R281: what the invariant says of the transport it says of a running or a bound block; a power cycle leaves neither, so
any configuration will do, and the rest is reset's but for the ROM, which stays. -/
theorem inv_powerCycle (hrom : s.rom = romOf d) : Inv d (powerCycle tr hang env s) where
  rom := hrom
  wire := inv_reset.wire
  waiting := inv_reset.waiting
  bound := inv_reset.bound
  program := inv_reset.program
  initTransport ha := nomatch ha
  readTransport ha := nomatch ha
  idleTransport _ hb := nomatch hb
  rawFilled := inv_reset.rawFilled
  convRaw := inv_reset.convRaw
  results := inv_reset.results
  string := inv_reset.string

/-- Settles O59: a power cycle leaves the block idle and unbound with no register written; the rest follows from these. -/
theorem powerCycleNeedsInitAgain : Obligations.PowerCycleNeedsInitAgain := by
  rintro d s _ tr hang env hrom rfl
  have hidle : (powerCycle tr hang env s).active = false := rfl
  have hunbound : (powerCycle tr hang env s).bound = false := rfl
  exact ⟨hidle, hunbound, rfl, rfl, rfl, rfl, rfl,
    fun r => hostRead_noValue hidle (holdsValue_powerCycle r),
    acceptMeasurement_notBound opRead hidle hunbound, acceptMeasurement_notBound opGetth hidle hunbound,
    fun b => ⟨_, execInit_accepted b hidle hunbound⟩, inv_powerCycle hrom⟩

end Sys2Proof.Machine
end
